-- ==== Sys2Proof/Word.lean ====
section
/-! DEFINITION. The bit vectors of stega-core and the two traversal policies. -/

namespace Sys2Proof

/-- A host register value: REG_BITS = 32 (00_scope R5). -/
abbrev Word := BitVec 32

/-- One byte of the message buffer, or one channel value: CHAN_BITS = 8 (00_scope R5). -/
abbrev Byte := BitVec 8

/-- The pixel word {R, G, B} of the pixel port (20_memory R69). -/
abbrev Pixel := BitVec 24

/-- A natural number written into a 32-bit register (00_scope R7: no rule writes a wider value). -/
def toWord (n : Nat) : Word := BitVec.ofNat 32 n

/-- The traversal policy P: 0 raster, 1 LCG (10_state R31, 30_encoding R94). -/
inductive Policy where
  | raster
  | lcg
deriving DecidableEq, Repr

end Sys2Proof
end

