-- ==== Sys2Proof/Config.lean ====
section
/-! DEFINITION. What an implementation fixes (the OPEN parameters of 00_scope R5), the block's constants, and the
free values the spec leaves open. -/

namespace Sys2Proof

/-- PIXEL_MEM, the platform's pixel memory (20_memory R86, 93_implementation_defined I9, I12). No rule depends on its value;
it is an argument of the port's responses `Config.portPixel` and `Config.portContents` (log 6, 22). -/
structure PixelMem where
  /-- Where the pixel memory lies in the platform's address space. -/
  location : Nat
  /-- Names the platform's organisation of the pixels there. -/
  organisation : Nat
  /-- Names the platform's response to addresses that do not match the attached image. -/
  response : Nat
deriving DecidableEq, Repr

/-- The OPEN parameters. Each field's type admits exactly the spec's range (log 3). -/
structure Config where
  /-- The highest message-buffer index: MSGBUF_BYTES − 1, so that 1 ≤ MSGBUF_BYTES ≤ 2^32 − 1. -/
  bufLast : Fin 4294967295
  /-- BASE / 4: BASE is 4-byte aligned. -/
  baseWord : Nat
  /-- PIXEL_MEM. -/
  pixelMem : PixelMem
deriving DecidableEq, Repr

/-- MSGBUF_BYTES, the size of the message buffer (00_scope R5, 20_memory R63). -/
def Config.msgbufBytes (c : Config) : Nat := c.bufLast.val + 1

/-- BASE, the host address of the register window (20_memory R86). -/
def Config.base (c : Config) : Nat := 4 * c.baseWord

/-- The platform of 95_test_vectors.md: MSGBUF_BYTES = 64, offsets from BASE = 0, and a pixel memory it says nothing of.
DESIGN CHOICE (log 3); unsafe: it is one platform of many, and only State.reset uses it. -/
def Config.vectors : Config :=
  { bufLast := 63, baseWord := 0, pixelMem := { location := 0, organisation := 0, response := 0 } }

/-- SENTINEL, fifteen ones and a zero (42_framer R160). -/
def sentinel : BitVec 16 := 0xFFFE

/-- M_MAX, the largest modulus (00_scope R5). -/
def modMax : Nat := 65535 * 65535

/-- The largest code point ADDCP carries (30_encoding R93). -/
def cpMax : Nat := 0x1FFFFF

/-! The free values: constants without a value, so a claim holds whatever they are. -/

/-- Byte `i` of a message buffer whose contents are unspecified; the first argument says which unspecified contents
(70_reset R263; log 4). -/
opaque Config.freeBufByte : Nat → Nat → Byte

/-- Channel byte `a` of an image as its owner attached it, where the attachment lists no value (log 5). -/
opaque Config.freeImageByte : Nat → Nat → Byte

/-- A pixel whose three channels may have any value (70_reset R266; log 7). -/
opaque Config.freePixel : Nat → Pixel

/-- What the platform's pixel memory answers to a read of a linear index when the image does not match the grid; the last
argument tells the reads apart (70_reset R270; log 6). -/
opaque Config.portPixel : PixelMem → Nat → Nat → Pixel

/-- Which free contents the platform's pixel memory leaves in the image after a write of a pixel to a linear index when the
image does not match the grid; the last argument tells the writes apart (70_reset R270; log 6). -/
opaque Config.portContents : PixelMem → Nat → Pixel → Nat → Nat

/-- The RESLEN of an extract the host raced (70_reset R266; log 7). -/
opaque Config.freeReslen : Nat → Word

/-- The outcome of an extract the host raced: 0 found, 1 not found, 2 overflow (70_reset R266; log 7). -/
opaque Config.freeOutcome : Nat → Fin 3

end Sys2Proof
end

