-- ==== Sys2Proof/Syntax.lean ====
section
/-! DEFINITION. The commands: one constructor per row of spec/opcode_table.json (30_encoding R96). -/

namespace Sys2Proof

/-- A command of stega-core. Ignored and reserved bits have no effect of any kind (30_encoding R95, R98), so they are no
part of a command. -/
inductive Instr where
  /-- NOP, op 0 (40_control R112). -/
  | nop
  /-- SETUP, op 1 (41_sequence R138). -/
  | setup
  /-- ADDCP cp, op 2 (41_sequence R139): `cp` is the unsigned code point. -/
  | addcp (cp : Nat)
  /-- EMBED P, op 3 (43_codec R192). -/
  | embed (p : Policy)
  /-- EXTRACT P, op 4 (43_codec R199). -/
  | extract (p : Policy)
  /-- GEN_START P, op 5 (41_sequence R140). -/
  | genStart (p : Policy)
  /-- GEN_NEXT, op 6 (41_sequence R141). -/
  | genNext
deriving DecidableEq, Repr

end Sys2Proof
end

