-- ==== Sys2Proof/WellFormed.lean ====
section
/-! DEFINITION. Which command terms the format CMDW can carry. -/

namespace Sys2Proof

/-- A command is well formed when its operand fits its field: ADDCP's code point has CP_BITS = 21 bits (30_encoding R93,
R100). The other operands fit by their types. -/
def Instr.wellFormed : Instr → Bool
  | .nop => true
  | .setup => true
  | .addcp cp => decide (cp ≤ cpMax)
  | .embed _ => true
  | .extract _ => true
  | .genStart _ => true
  | .genNext => true

end Sys2Proof
end

