-- ==== Sys2Proof/Decode.lean ====
section
/-! DEFINITION. The command word (30_encoding): its fields, the decoder, and the encoder. -/

namespace Sys2Proof

/-- Why a word is no command. -/
inductive DecodeError where
  /-- Opcodes 7 to 15 are reserved (30_encoding R97). -/
  | reservedOpcode (op : BitVec 4)
deriving DecidableEq, Repr

/-- op = w[31:28] (30_encoding R91, R92). -/
def opField (w : Word) : BitVec 4 := w.extractLsb' 28 4

/-- cp = w[20:0], read unsigned (30_encoding R93). -/
def cpField (w : Word) : Nat := (w.extractLsb' 0 21).toNat

/-- P = w[0]: 0 raster, 1 LCG (30_encoding R94). -/
def policyField (w : Word) : Policy := if w.extractLsb' 0 1 = 1#1 then .lcg else .raster

/-- The decoder: total on 32-bit words, looking at op to choose the command (30_encoding R92, R96). -/
def decode (w : Word) : Except DecodeError Instr :=
  match (opField w).toNat with
  | 0 => .ok .nop
  | 1 => .ok .setup
  | 2 => .ok (.addcp (cpField w))
  | 3 => .ok (.embed (policyField w))
  | 4 => .ok (.extract (policyField w))
  | 5 => .ok (.genStart (policyField w))
  | 6 => .ok .genNext
  | _ => .error (.reservedOpcode (opField w))

/-- The policy bit P (30_encoding R94, R100). -/
def policyBit : Policy → Word
  | .raster => 0
  | .lcg => 1

/-- The opcode of a command (30_encoding R96). -/
def Instr.opcode : Instr → BitVec 4
  | .nop => 0
  | .setup => 1
  | .addcp _ => 2
  | .embed _ => 3
  | .extract _ => 4
  | .genStart _ => 5
  | .genNext => 6

/-- The operand field of a command, in place (30_encoding R93, R94). -/
def Instr.operandBits : Instr → Word
  | .nop => 0
  | .setup => 0
  | .addcp cp => toWord cp
  | .embed p => policyBit p
  | .extract p => policyBit p
  | .genStart p => policyBit p
  | .genNext => 0

/-- The word of a command, ignored bits 0 (30_encoding R96, R98): `op << 28 OR operand`. -/
def encode (i : Instr) : Word := (i.opcode.setWidth 32 <<< 28) ||| i.operandBits

/-- The bits of a word that its command reads: op, and the operand bits of 30_encoding R95. -/
def usedMask (w : Word) : Word :=
  match (opField w).toNat with
  | 2 => 0xF01FFFFF
  | 3 => 0xF0000001
  | 4 => 0xF0000001
  | 5 => 0xF0000001
  | _ => 0xF0000000

/-- A row of the opcode table laid out as a command word: a decoder always takes exactly 32 bits (30_encoding R90), and the
bits above `nbits` are 0. No byte order enters, since a word arrives as one register value (20_memory R75; log 14). -/
def tableWord (nbits w : Nat) : Word := toWord (w % 2 ^ nbits)

/-- The command the decoder reads from a row of the opcode table. -/
def decodeTableWord (nbits w : Nat) : Option Instr :=
  match decode (tableWord nbits w) with
  | .ok i => some i
  | .error _ => none

end Sys2Proof
end

