-- ==== Sys2Proof/Machine/State.lean ====
section
/-! DEFINITION. The whole-system state: the block, the image, the host, the agenda of turns; the reasons a step stops; the
state after reset. Plain data. -/

namespace Sys2Proof.Machine

/-- Bytes by address: addresses strictly rising, one cell for each byte that has been written or given; an address without
a cell holds a free value (log 4, 5). -/
abbrev Memory := List Host.Cell

/-- STATUS.STATE (10_state R25). -/
inductive EngineState where
  | idle | traversing | done | exhausted | failed
deriving DecidableEq, Repr

/-- STATUS.ERR (10_state R26). -/
inductive ErrCode where
  | none | capacityExceeded | exhausted | invalidGrid | notConfigured | badLength | msgOverflow
deriving DecidableEq, Repr

/-- OPK, the hidden operation-kind latch (10_state R54). -/
inductive OpKind where
  | none | embed | extract
deriving DecidableEq, Repr

/-- The attached image (10_state R57, 20_memory R68): channel `j` of the pixel with linear index `k = y·width + x` is the
byte at `3·k + j` of `cells`; `epoch` names the free contents of the channels without a cell (log 5, 22). -/
structure Image where
  width : Nat
  height : Nat
  epoch : Nat
  cells : Memory
deriving DecidableEq, Repr

/-- The condition of `IF cond GOTO label` on the last value read: its field [hi:lo] equals `val` (30_encoding R101; log 16). -/
structure FieldTest where
  hi : Nat
  lo : Nat
  val : Nat
deriving DecidableEq, Repr

/-- A statement of an expanded host program (30_encoding R101); `off` is a register offset, a target is a statement's
position. -/
inductive HostStmt where
  /-- `WR reg, v`. -/
  | wr (off : Nat) (v : Word)
  /-- `RD reg`. -/
  | rd (off : Nat)
  /-- `RD reg == v`: checked, never branched on. -/
  | rdEq (off : Nat) (v : Word)
  /-- `IF cond GOTO label`. -/
  | ifGoto (cond : FieldTest) (target : Nat)
deriving DecidableEq, Repr

/-- The host agent: its program and position, the last register value and pixel it read, and whether a value stated by an
`RD reg == v` ever differed (30_encoding R101; log 16). -/
structure HostAgent where
  program : List HostStmt
  pc : Nat
  lastRead : Word
  lastPixel : Pixel
  checkFailed : Bool
deriving DecidableEq, Repr

/-- One atomic step of the total order of 20_memory R80, as the agenda names it (log 1). Addresses are host addresses. -/
inductive Turn where
  /-- The host program performs its next statement. -/
  | host
  /-- The engine takes its pixel step, if one is enabled (40_control R115). -/
  | engine
  /-- Reset (70_reset R260). -/
  | reset
  /-- A host register read at `addr`, `bits` wide (20_memory R61, R62, R86). -/
  | busRead (addr bits : Nat)
  /-- A host register write at `addr`, `bits` wide. -/
  | busWrite (addr bits : Nat) (v : Word)
  /-- The host reads a pixel by its own path (20_memory R78). -/
  | imageRead (x y : Nat)
  /-- The host writes a pixel by its own path (20_memory R78). -/
  | imageWrite (x y : Nat) (p : Pixel)
  /-- The host attaches an image of `w` by `h` pixels, listed row by row (70_reset R265 step 1). -/
  | attach (w h : Nat) (pixels : List Pixel)
deriving DecidableEq, Repr

/-- The machine's faults. The block itself never faults: its errors are STATUS values (60_exceptions R231). -/
inductive Fault where
  /-- Raised by an emission when N < MOD does not hold, the precondition of 41_sequence R131 (GEN_NEXT beyond R141's two
  cases, or an engine step). Safe: no state that satisfies the invariants of 10_state R55 raises it (log 8). -/
  | emitPastEnd
deriving DecidableEq, Repr

/-- Why a step has no meaning. All safe: the model stops where the spec gives no behaviour. -/
inductive Refusal where
  /-- Raised by exec for a command without a meaning. No arm raises it: every command has its meaning. -/
  | notModelled (mnemonic : String)
  /-- Raised by a host register access that is not 32 bits wide (20_memory R62). Safe. -/
  | accessWidth
  /-- Raised by a host register access whose offset is not a multiple of 4 (20_memory R62). Safe. -/
  | accessMisaligned
  /-- Raised by a host register access outside BASE to BASE + 0xFF (20_memory R62, R86). Safe. -/
  | accessOutsideWindow
  /-- Raised by a host access, by its own path, to a pixel the attached image does not have (log 11). Safe. -/
  | noSuchPixel
deriving DecidableEq, Repr

/-- The whole system: block state (10_state R56), then image, host and agenda, then the parameters and the model's own
bookkeeping of free values. -/
structure State where
  /-- STATUS.STATE (10_state R25). -/
  state : EngineState
  /-- STATUS.ERR (10_state R26). -/
  err : ErrCode
  /-- STATUS.CFGOK (10_state R27). -/
  cfgok : Bool
  /-- STATUS.REJ (10_state R28). -/
  rej : Bool
  /-- STATUS.CVALID (10_state R30). -/
  cvalid : Bool
  /-- STATUS.POLICY (10_state R31). -/
  policy : Policy
  /-- STATUS.LASTOP (10_state R32). -/
  lastop : BitVec 4
  /-- GRID (10_state R33). -/
  grid : Word
  /-- MSGLEN (10_state R34). -/
  msglen : Word
  /-- MSGADDR (10_state R35). -/
  msgaddr : Word
  /-- MOD (10_state R37). -/
  mod : Word
  /-- MULT (10_state R38). -/
  mult : Word
  /-- INC (10_state R39). -/
  inc : Word
  /-- SEED (10_state R40). -/
  seed : Word
  /-- LCGS, the generator state S (10_state R41). -/
  lcgs : Word
  /-- COUNT, the emission count N (10_state R42). -/
  count : Word
  /-- LASTIDX (10_state R43). -/
  lastidx : Word
  /-- COORD (10_state R44). -/
  coord : Word
  /-- RESLEN (10_state R45). -/
  reslen : Word
  /-- BITCNT (10_state R48). -/
  bitcnt : BitVec 64
  /-- SR, read as SHIFT (10_state R49). -/
  sr : BitVec 16
  /-- WL (10_state R53). -/
  wl : BitVec 16
  /-- HL (10_state R53). -/
  hl : BitVec 16
  /-- OPK (10_state R54). -/
  opk : OpKind
  /-- MSGBUF: the bytes written since its contents were last unspecified (20_memory R63). -/
  msgbuf : Memory
  /-- The external image (10_state R57). -/
  image : Image
  /-- The host agent (00_scope R4, 30_encoding R101). -/
  host : HostAgent
  /-- The turns to come, first turn first (20_memory R80; log 1). -/
  agenda : List Turn
  /-- The OPEN parameters (00_scope R5; log 3). No step writes them. -/
  cfg : Config
  /-- Model's own: names the next free value (log 4). -/
  fresh : Nat
  /-- Model's own: names the unspecified contents MSGBUF holds where nothing is written (70_reset R263; log 4). -/
  bufEpoch : Nat
  /-- Model's own: linear indexes of pixels the host wrote during this traversal (70_reset R266; log 7). -/
  raced : List Nat
  /-- Model's own: the host wrote a pixel this extract had not yet read (70_reset R266; log 7). -/
  tainted : Bool
  /-- Model's own: the attached image has had GRID's dimensions since the last successful SETUP (70_reset R270; log 6). -/
  gridMatches : Bool
deriving DecidableEq, Repr

/-- What a step or a command answers. -/
abbrev Result := Host.Outcome State Fault Refusal

/-- The state right after reset: every block element as 10_state R56 lists it; the environment as log 3, 5 and 16 say. -/
def State.reset : State where
  state := .idle
  err := .none
  cfgok := false
  rej := false
  cvalid := false
  policy := .raster
  lastop := 0
  grid := 0
  msglen := 0
  msgaddr := 0
  mod := 0
  mult := 0
  inc := 0
  seed := 0
  lcgs := 0
  count := 0
  lastidx := 0
  coord := 0
  reslen := 0
  bitcnt := 0
  sr := 0
  wl := 0
  hl := 0
  opk := .none
  msgbuf := []
  image := { width := 0, height := 0, epoch := 0, cells := [] }
  host := { program := [], pc := 0, lastRead := 0, lastPixel := 0, checkFailed := false }
  agenda := []
  cfg := Config.vectors
  fresh := 1
  bufEpoch := 0
  raced := []
  tainted := false
  gridMatches := false

end Sys2Proof.Machine
end

