-- ==== Sys2Proof/Machine/Operands.lean ====
section
/-! DEFINITION. The operand forms inside registers and pixel words: GRID's and COORD's fields, the channels of a pixel, the
least-significant bit of a channel, the fields a host program tests. -/

namespace Sys2Proof.Machine

/-- W = GRID[15:0] (10_state R33). -/
def gridW (g : Word) : BitVec 16 := g.extractLsb' 0 16

/-- H = GRID[31:16] (10_state R33). -/
def gridH (g : Word) : BitVec 16 := g.extractLsb' 16 16

/-- COORD with COORD[15:0] = x and COORD[31:16] = y (10_state R44). -/
def packCoord (x y : Nat) : Word := BitVec.ofNat 16 y ++ BitVec.ofNat 16 x

/-- GRID as `GRIDSET W, H` writes it: (H << 16) OR W (30_encoding R102). -/
def packGrid (w h : Nat) : Word := toWord (h <<< 16 ||| w)

/-- ch_j(P) = P[23 − 8·j : 16 − 8·j], R, G and B for j = 0, 1, 2 (20_memory R69). -/
def channel (j : Nat) (p : Pixel) : Byte := p.extractLsb' (16 - 8 * j) 8

/-- P with channel j replaced. -/
def setChannel (j : Nat) (p : Pixel) (v : Byte) : Pixel :=
  (p &&& ~~~(0xFF#24 <<< (16 - 8 * j))) ||| (v.setWidth 24 <<< (16 - 8 * j))

/-- LSB insert: (ch AND 0xFE) OR b (43_codec R193). -/
def insertLsb (ch : Byte) (b : Bool) : Byte := (ch &&& 0xFE) ||| (BitVec.ofBool b).setWidth 8

/-- LSB extract: ch AND 1 (43_codec R200). -/
def lsb (ch : Byte) : Bool := ch.getLsbD 0

/-- The condition of an `IF cond GOTO` on the last value read (30_encoding R101). -/
def FieldTest.holds (c : FieldTest) (v : Word) : Bool :=
  v.toNat / 2 ^ c.lo % 2 ^ (c.hi + 1 - c.lo) == c.val

end Sys2Proof.Machine
end

