-- ==== Sys2Proof/Machine/Ops.lean ====
section
/-! DEFINITION. The shared operations: memory, the message buffer, the pixel port, rejection, the command prologue, the
failure entry (the block's only exception entry), the settling of host races, reset. -/

namespace Sys2Proof.Machine

/-! ### Memory in canonical form -/

/-- The canonical form: addresses strictly rising. -/
abbrev Memory.wf (m : Memory) : Prop := (m.map Prod.fst).Pairwise (· < ·)

/-- The byte at `a`, if one is listed. -/
def Memory.read : Memory → Nat → Option Byte
  | [], _ => none
  | (b, w) :: r, a => if b = a then some w else Memory.read r a

/-- The memory with byte `v` at `a`. -/
def Memory.write : Memory → Nat → Byte → Memory
  | [], a, v => [(a, v)]
  | (b, w) :: r, a, v =>
    if a < b then (a, v) :: (b, w) :: r else if a = b then (a, v) :: r else (b, w) :: Memory.write r a v

/-! ### The message buffer -/

/-- MSGBUF[i] as it stands: the byte written, or a free value where nothing is (20_memory R63, 70_reset R263). -/
def bufByte (s : State) (i : Nat) : Byte := (s.msgbuf.read i).getD (Config.freeBufByte s.bufEpoch i)

/-- MemRead(i, 1) (20_memory R67). -/
def memRead (i : Nat) (s : State) : Byte := bufByte s i

/-- MemWrite(i, 1, v) (20_memory R67). -/
def memWrite (i : Nat) (v : Byte) (s : State) : State := { s with msgbuf := s.msgbuf.write i v }

/-! ### The image -/

/-- Channel byte `a` of an image: as listed, or the free value its owner attached. -/
def Image.byte (m : Image) (a : Nat) : Byte := (m.cells.read a).getD (Config.freeImageByte m.epoch a)

/-- The pixel with linear index `k`, as the word {R, G, B} (20_memory R69). -/
def Image.pixel (m : Image) (k : Nat) : Pixel := m.byte (3 * k) ++ m.byte (3 * k + 1) ++ m.byte (3 * k + 2)

/-- The image with pixel `k` replaced, and no other (20_memory R71). -/
def Image.setPixel (m : Image) (k : Nat) (p : Pixel) : Image :=
  { m with cells := ((m.cells.write (3 * k) (channel 0 p)).write (3 * k + 1) (channel 1 p)).write (3 * k + 2) (channel 2 p) }

/-- The image with pixels `k`, `k+1`, … set from a list. -/
def Image.fill (m : Image) : Nat → List Pixel → Image
  | _, [] => m
  | k, p :: ps => (m.setPixel k p).fill (k + 1) ps

/-- Linear index y·WL + x, which the port carries beside x and y (20_memory R70). -/
def linearIndex (x y : Nat) (s : State) : Nat := y * s.wl.toNat + x

/-- A pixel of any value, and the state that has used it up. -/
def drawPixel (s : State) : Pixel × State := (Config.freePixel s.fresh, { s with fresh := s.fresh + 1 })

/-- The response of PIXEL_MEM to a read of linear index `k` when the image does not match the grid (70_reset R270; log 6). -/
def portRead (k : Nat) (s : State) : Pixel × State :=
  (Config.portPixel s.cfg.pixelMem k s.fresh, { s with fresh := s.fresh + 1 })

/-- The response of PIXEL_MEM to a write of `p` to linear index `k` when the image does not match the grid: contents of any
value in the whole image (70_reset R270; log 6). -/
def portWrite (k : Nat) (p : Pixel) (s : State) : State :=
  { s with image := { s.image with epoch := Config.portContents s.cfg.pixelMem k p s.fresh, cells := [] },
           fresh := s.fresh + 1 }

/-- PixelRead(x, y) (20_memory R70). The platform's response where the image does not match the grid (log 6), and any value
where the host wrote the pixel during this traversal (70_reset R266; log 7). -/
def pixelRead (x y : Nat) (s : State) : Pixel × State :=
  if s.gridMatches then
    if s.raced.contains (linearIndex x y s) then drawPixel s else (s.image.pixel (linearIndex x y s), s)
  else portRead (linearIndex x y s) s

/-- PixelWrite(x, y, P) (20_memory R71). -/
def pixelWrite (x y : Nat) (p : Pixel) (s : State) : State :=
  if s.gridMatches then { s with image := s.image.setPixel (linearIndex x y s) p } else portWrite (linearIndex x y s) p s

/-! ### Rejection, prologue and failure -/

/-- A rejected access: REJ <- 1 and nothing else (10_state R28). -/
def reject (s : State) : State := { s with rej := true }

/-- The prologue of every accepted command (40_control R111). -/
def prologue (op : BitVec 4) (s : State) : State := { s with state := .idle, err := .none, rej := false, lastop := op }

/-- The state changes of `raise Fail(e)`, the block's only failure entry: it saves nothing and jumps nowhere
(60_exceptions R231). The return from it is the next accepted command's prologue (60_exceptions R243). -/
def failWith (e : ErrCode) (s : State) : State := { s with state := .failed, err := e }

/-- `raise Fail(e)`: the command ends at once (60_exceptions R231). -/
def raiseFail (e : ErrCode) (s : State) : Result := .next (failWith e s)

/-- The dispatch of a CMD write that carries a valid opcode: rejected while TRAVERSING, else the prologue and then the
command's own rule (40_control R110; log 13). -/
def command (op : BitVec 4) (body : State → Result) (s : State) : Result :=
  if s.state = .traversing then .next (reject s) else body (prologue op s)

/-- The check that a configuration is present, first in every command that needs one (60_exceptions R236). -/
def configured (body : State → Result) (s : State) : Result :=
  if s.cfgok then body s else raiseFail .notConfigured s

/-! ### Host races (70_reset R266; log 7) -/

/-- Each listed pixel's three channels take any value. -/
def settlePixels : List Nat → State → State
  | [], s => s
  | k :: ks, s =>
    settlePixels ks { s with image := s.image.setPixel k (Config.freePixel s.fresh), fresh := s.fresh + 1 }

/-- STATE of an extract outcome. -/
def outcomeState : Fin 3 → EngineState
  | 0 => .done
  | 1 => .exhausted
  | 2 => .failed

/-- ERR of an extract outcome. -/
def outcomeErr : Fin 3 → ErrCode
  | 0 => .none
  | 1 => .none
  | 2 => .msgOverflow

/-- The found message, RESLEN and the outcome of a tainted extract take any value. -/
def settleResult (s : State) : State :=
  if s.tainted then
    { s with state := outcomeState (Config.freeOutcome s.fresh), err := outcomeErr (Config.freeOutcome s.fresh),
             reslen := Config.freeReslen s.fresh, msgbuf := [], bufEpoch := s.fresh, fresh := s.fresh + 1, tainted := false }
  else s

/-- At the end of a traversal the races of its time are settled; while it runs, nothing happens. -/
def settleRaces (s : State) : State :=
  if s.state = .traversing then s
  else settleResult { settlePixels s.raced s with raced := [] }

/-! ### Reset -/

/-- Reset of the block (70_reset R260): the block as in State.reset, MSGBUF unspecified (R263), an abandoned traversal's
races settled (R262, R266); the image, the host, the agenda and the parameters are not the block's (R264). -/
def resetBlock (s : State) : State :=
  let r := settlePixels s.raced s
  { State.reset with
    image := r.image, host := r.host, agenda := r.agenda, cfg := r.cfg, fresh := r.fresh + 1, bufEpoch := r.fresh }

end Sys2Proof.Machine
end

