-- ==== Sys2Proof/Machine/Framer.lean ====
section
/-! DEFINITION. The bit-stream serializer, deserializer and sentinel detector (42_framer). -/

namespace Sys2Proof.Machine

/-- T = 8·L + 16, the frame's length (42_framer R163). -/
def frameLength (s : State) : Nat := 8 * s.msglen.toNat + 16

/-- bit(k), frame bit k on demand, most-significant bit first (42_framer R162, R164). -/
def frameBit (s : State) (k : Nat) : Bool :=
  if k < 8 * s.msglen.toNat then (memRead (k / 8) s).getLsbD (7 - k % 8)
  else sentinel.getLsbD (15 - (k - 8 * s.msglen.toNat))

/-! ### The source's frame and unframe

The functions the serializer and the deserializer must agree with; the machine itself does not run them. -/

/-- A byte's 8 bits, most-significant first (20_memory R74). -/
def byteBits (v : Byte) : List Bool := [7, 6, 5, 4, 3, 2, 1, 0].map v.getLsbD

/-- The 16 sentinel bits, most-significant first (42_framer R160). -/
def sentinelBits : List Bool := List.replicate 15 true ++ [false]

/-- frame(message) (42_framer R162). -/
def frame (message : List Byte) : List Bool := message.flatMap byteBits ++ sentinelBits

/-- An occurrence of the sentinel at `i` (42_framer R165). -/
def occursAt (b : List Bool) (i : Nat) : Bool := (b.drop i).take 16 == sentinelBits

/-- The smallest index of an occurrence, counted from `i` at the head of the list (42_framer R165). -/
def firstOccurrence : Nat → List Bool → Option Nat
  | _, [] => none
  | i, b :: bs => if occursAt (b :: bs) 0 then some i else firstOccurrence (i + 1) bs

/-- The number whose bits, most-significant first, are given. -/
def bitsValue (b : List Bool) : Nat := b.foldl (fun n x => 2 * n + x.toNat) 0

/-- D[j], the byte of bits b_{8j} … b_{8j+7} (42_framer R165). -/
def regrouped (b : List Bool) (j : Nat) : Byte := BitVec.ofNat 8 (bitsValue ((b.drop (8 * j)).take 8))

/-- unframe(b): the bytes before the first occurrence, or NotFound (42_framer R165). -/
def unframe (b : List Bool) : Option (List Byte) :=
  (firstOccurrence 0 b).map fun i => (List.range (i / 8)).map (regrouped b)

/-- MSGBUF[0 .. n − 1]. -/
def bufBytes (s : State) (n : Nat) : List Byte := (List.range n).map (bufByte s)

/-! ### The hardware deserializer -/

/-- append(b): SR <- ((SR << 1) OR b) AND 0xFFFF; BITCNT <- BITCNT + 1 (42_framer R166). -/
def appendBit (b : Bool) (s : State) : State :=
  { s with sr := (s.sr <<< 1) ||| (BitVec.ofBool b).setWidth 16, bitcnt := s.bitcnt + 1 }

/-- commit(): a completed byte goes to MSGBUF, if there is room (42_framer R167). -/
def commit (s : State) : State :=
  if s.bitcnt.toNat % 8 = 0 ∧ s.bitcnt.toNat / 8 - 1 < s.cfg.msgbufBytes then
    memWrite (s.bitcnt.toNat / 8 - 1) (s.sr.extractLsb' 0 8) s
  else s

/-- The match condition (42_framer R168). -/
def sentinelFound (s : State) : Bool := decide (16 ≤ s.bitcnt.toNat) && s.sr == sentinel

/-- match() when the condition holds: RESLEN, then DONE or MSG_OVERFLOW (42_framer R169). -/
def finishMatch (s : State) : State :=
  let n := (s.bitcnt.toNat - 16) / 8
  if s.cfg.msgbufBytes < n then failWith .msgOverflow { s with reslen := toWord n }
  else { s with reslen := toWord n, state := .done }

end Sys2Proof.Machine
end

