-- ==== Sys2Proof/Machine/Sequence.lean ====
section
/-! DEFINITION. The coordinate generator (41_sequence): parameter derivation, next state, emission, and the commands SETUP,
ADDCP, GEN_START and GEN_NEXT. -/

namespace Sys2Proof.Machine

/-! ### Parameter derivation -/

/-- The search of R121: candidates `c`, `c+2`, … until one is coprime to `m`; the first argument bounds the search. -/
def incrFrom (m : Nat) : Nat → Nat → Nat
  | 0, c => c
  | fuel + 1, c => if Nat.gcd c m = 1 then c else incrFrom m fuel (c + 2)

/-- incr(m): the first candidate from (m div 2) OR 1 that is coprime to m (41_sequence R121). The bound m is never reached
(R122). -/
def incr (m : Nat) : Nat := incrFrom m m (m / 2 ||| 1)

/-- `n` without its factors `p`; the first argument bounds their number. -/
def stripFactor (p : Nat) : Nat → Nat → Nat
  | 0, n => n
  | fuel + 1, n => if n % p = 0 then stripFactor p fuel (n / p) else n

/-- Trial division from `p`: `acc` times the distinct primes of `n`, which has none below `p`. -/
def radFrom : Nat → Nat → Nat → Nat → Nat
  | 0, _, n, acc => acc * n
  | fuel + 1, p, n, acc =>
    if n < p * p then acc * n
    else if n % p = 0 then radFrom fuel (p + 1) (stripFactor p n n) (acc * p)
    else radFrom fuel (p + 1) n acc

/-- rad(m), the product of the distinct primes dividing m, each taken once; rad(1) = 1 (41_sequence R123; log 19). -/
def rad (m : Nat) : Nat := radFrom m 2 m 1

/-- mult(m) (41_sequence R124). -/
def mult (m : Nat) : Nat :=
  let p := rad m
  (if m % 4 = 0 ∧ p % 4 ≠ 0 then 2 * p else p) + 1

/-! ### Next state, initialisation, emission -/

/-- next_L(v) = (a·v + c) mod m, formed exactly and reduced once (41_sequence R128). -/
def lcgNext (a c m v : Nat) : Nat := (a * v + c) % m

/-- next_R(v) = (v + 1) mod m (41_sequence R129). -/
def rasterNext (m v : Nat) : Nat := (v + 1) % m

/-- next(v) under the latched policy (41_sequence R129). -/
def nextOf (s : State) (v : Nat) : Nat :=
  match s.policy with
  | .lcg => lcgNext s.mult.toNat s.inc.toNat s.mod.toNat v
  | .raster => rasterNext s.mod.toNat v

/-- The start state under a policy: SEED or 0 (41_sequence R130). -/
def startOf (p : Policy) (s : State) : Word :=
  match p with
  | .lcg => s.seed
  | .raster => 0

/-- gen_init(p) (41_sequence R130). -/
def genInit (p : Policy) (s : State) : State :=
  { s with policy := p, lcgs := startOf p s, count := 0, cvalid := false }

/-- x = S mod WL, the column of the value about to be emitted (41_sequence R132). -/
def coordX (s : State) : Nat := s.lcgs.toNat % s.wl.toNat

/-- y = S div WL, its row (41_sequence R132). -/
def coordY (s : State) : Nat := s.lcgs.toNat / s.wl.toNat

/-- The state changes of emit() (41_sequence R131). -/
def advance (s : State) : State :=
  { s with lastidx := s.lcgs, coord := packCoord (coordX s) (coordY s), lcgs := toWord (nextOf s s.lcgs.toNat),
           count := toWord (s.count.toNat + 1), cvalid := true }

/-- emit() under its precondition N < MOD, then `k` on the coordinate (41_sequence R131). Outside the precondition the spec
gives an emission no meaning (log 8). -/
def emit (k : Nat → Nat → State → Result) (s : State) : Result :=
  if s.count.toNat < s.mod.toNat then k (coordX s) (coordY s) (advance s) else .fault .emitPastEnd

/-- The next `n` values the generator emits, in order (41_sequence R131). -/
def emissions : Nat → State → List Nat
  | 0, _ => []
  | n + 1, s => s.lcgs.toNat :: emissions n (advance s)

/-- Whether value `k` is among the next `n` values from `v`. -/
def emitsWithin (s : State) (k : Nat) : Nat → Nat → Bool
  | 0, _ => false
  | n + 1, v => v == k || emitsWithin s k n (nextOf s v)

/-- Whether this traversal has already emitted, and so read, the pixel with linear index `k` (20_memory R72). -/
def alreadyEmitted (s : State) (k : Nat) : Bool := emitsWithin s k s.count.toNat (startOf s.policy s).toNat

/-! ### Commands -/

/-- What SETUP clears whatever the grid (41_sequence R138). -/
def clearGenerator (s : State) : State :=
  { s with seed := 0, lcgs := 0, count := 0, lastidx := 0, coord := 0, policy := .raster, cvalid := false }

/-- The configuration SETUP derives from a valid grid (41_sequence R138). -/
def latchGrid (w h : BitVec 16) (s : State) : State :=
  let m := w.toNat * h.toNat
  { s with wl := w, hl := h, mod := toWord m, inc := toWord (incr m), mult := toWord (mult m), cfgok := true,
           gridMatches := s.image.width == w.toNat && s.image.height == h.toNat }

/-- The configuration after a SETUP on a zero grid (41_sequence R138). -/
def clearConfig (s : State) : State :=
  { s with cfgok := false, mod := 0, mult := 0, inc := 0, wl := 0, hl := 0, gridMatches := false }

/-- SETUP after the prologue (41_sequence R138). -/
def setupBody (s : State) : Result :=
  if gridW s.grid = 0 ∨ gridH s.grid = 0 then raiseFail .invalidGrid (clearConfig (clearGenerator s))
  else .next (latchGrid (gridW s.grid) (gridH s.grid) (clearGenerator s))

/-- SETUP (41_sequence R138). -/
def execSetup (s : State) : Result := command 1 setupBody s

/-- ADDCP cp (41_sequence R139). -/
def execAddcp (cp : Nat) (s : State) : Result :=
  command 2 (configured fun s => .next { s with seed := toWord ((s.seed.toNat + cp) % s.mod.toNat) }) s

/-- GEN_START P (41_sequence R140). -/
def execGenStart (p : Policy) (s : State) : Result := command 5 (configured fun s => .next (genInit p s)) s

/-- GEN_NEXT after the prologue and the configuration check (41_sequence R141). -/
def genNextBody (s : State) : Result :=
  if s.count = s.mod then .next { s with cvalid := false } else emit (fun _ _ s => .next s) s

/-- GEN_NEXT (41_sequence R141). -/
def execGenNext (s : State) : Result := command 6 (configured genNextBody) s

end Sys2Proof.Machine
end

