-- ==== Sys2Proof/Machine/Codec.lean ====
section
/-! DEFINITION. The LSB insert/extract unit (43_codec): EMBED and EXTRACT, and the engine's pixel steps. -/

namespace Sys2Proof.Machine

/-! ### Commands -/

/-- The start of an embed traversal (43_codec R192). DEDUCED (log 25): the register RESLEN is kept, as R192 and 10_state
R45 say that EMBED does not write it, and a read of it shows 0 while TRAVERSING, as 70_reset R267 says (`reslenView`). -/
def startEmbed (p : Policy) (s : State) : State :=
  { genInit p s with opk := .embed, bitcnt := 0, state := .traversing }

/-- EMBED P after the prologue and the configuration check (43_codec R192). -/
def embedBody (p : Policy) (s : State) : Result :=
  if s.cfg.msgbufBytes < s.msglen.toNat then raiseFail .badLength s
  else if 3 * s.mod.toNat < frameLength s then raiseFail .capacityExceeded s
  else .next (startEmbed p s)

/-- EMBED P (43_codec R192). -/
def execEmbed (p : Policy) (s : State) : Result := command 3 (configured (embedBody p)) s

/-- The start of an extract traversal (43_codec R199). -/
def startExtract (p : Policy) (s : State) : State :=
  { genInit p s with opk := .extract, bitcnt := 0, sr := 0, reslen := 0, state := .traversing }

/-- EXTRACT P (43_codec R199). -/
def execExtract (p : Policy) (s : State) : Result := command 4 (configured fun s => .next (startExtract p s)) s

/-! ### The embed pixel step -/

/-- Channel j of the embed step: the next frame bit, if one is pending (43_codec R194). -/
def insertChannel (j : Nat) (sp : State × Pixel) : State × Pixel :=
  if sp.1.bitcnt.toNat < frameLength sp.1 then
    ({ sp.1 with bitcnt := sp.1.bitcnt + 1 },
      setChannel j sp.2 (insertLsb (channel j sp.2) (frameBit sp.1 sp.1.bitcnt.toNat)))
  else sp

/-- R, then G, then B. -/
def insertChannels (sp : State × Pixel) : State × Pixel := insertChannel 2 (insertChannel 1 (insertChannel 0 sp))

/-- The endings of an embed step: DONE is tested before EXHAUSTED (43_codec R195). -/
def endEmbed (s : State) : State :=
  if s.bitcnt.toNat = frameLength s then { s with state := .done }
  else if s.count = s.mod then { s with state := .exhausted, err := .exhausted }
  else s

/-- embed_step() after its emission: read, insert up to three bits, write back, test the endings (43_codec R194). -/
def embedPixel (x y : Nat) (s : State) : State :=
  let (p, s) := pixelRead x y s
  let (s, p) := insertChannels (s, p)
  endEmbed (pixelWrite x y p s)

/-! ### The extract pixel step -/

/-- The ending of an extract step without a match (43_codec R202). -/
def endExtract (s : State) : State :=
  if s.count = s.mod then { s with reslen := 0, state := .exhausted } else s

/-- The listed channels in order: append, commit, test; a match ends the step at once (43_codec R201). -/
def scanChannels (p : Pixel) : List Nat → State → State
  | [], s => endExtract s
  | j :: js, s =>
    let t := commit (appendBit (lsb (channel j p)) s)
    if sentinelFound t then finishMatch t else scanChannels p js t

/-- extract_step() after its emission (43_codec R201). -/
def extractPixel (x y : Nat) (s : State) : State :=
  let (p, s) := pixelRead x y s
  scanChannels p [0, 1, 2] s

/-- The least-significant bits of an image's pixels with the given linear indexes, R, G, B per pixel: the bits an extract
reads, in order (43_codec R204). -/
def pixelBits (m : Image) (ks : List Nat) : List Bool :=
  ks.flatMap fun k => [0, 1, 2].map fun j => lsb (channel j (m.pixel k))

/-! ### The engine -/

/-- engine_step(), by OPK (40_control R115); the caller has checked STATE = TRAVERSING. With OPK = NONE neither branch runs
(log 9). -/
def engineStep (s : State) : Result :=
  match s.opk with
  | .embed => emit (fun x y s => .next (settleRaces (embedPixel x y s))) s
  | .extract => emit (fun x y s => .next (settleRaces (extractPixel x y s))) s
  | .none => .next s

end Sys2Proof.Machine
end

