-- ==== Sys2Proof/Machine/Control.lean ====
section
/-! DEFINITION. The control family: NOP (40_control). -/

namespace Sys2Proof.Machine

/-- NOP: the prologue and nothing else (40_control R112). -/
def execNop (s : State) : Result := command 0 .next s

end Sys2Proof.Machine
end

