-- ==== Sys2Proof/Machine/Dispatch.lean ====
section
/-! DEFINITION. One arm per command. -/

namespace Sys2Proof.Machine

/-- The effect of writing a command's word to CMD. -/
def exec (i : Instr) (s : State) : Host.Outcome State Fault Refusal :=
  match i with
  | .nop => Sys2Proof.Machine.execNop s
  | .setup => Sys2Proof.Machine.execSetup s
  | .addcp cp => Sys2Proof.Machine.execAddcp cp s
  | .embed p => Sys2Proof.Machine.execEmbed p s
  | .extract p => Sys2Proof.Machine.execExtract p s
  | .genStart p => Sys2Proof.Machine.execGenStart p s
  | .genNext => Sys2Proof.Machine.execGenNext s

end Sys2Proof.Machine
end

