-- ==== Sys2Proof/Machine/Flags.lean ====
section
/-! DEFINITION. The STATUS word and its codes (10_state R24 to R32). -/

namespace Sys2Proof.Machine

/-- The encodings of STATUS.STATE (10_state R25). -/
def stateCode : EngineState → BitVec 3
  | .idle => 0
  | .traversing => 1
  | .done => 2
  | .exhausted => 3
  | .failed => 4

/-- The encodings of STATUS.ERR (10_state R26). -/
def errCode : ErrCode → BitVec 4
  | .none => 0
  | .capacityExceeded => 1
  | .exhausted => 2
  | .invalidGrid => 3
  | .notConfigured => 4
  | .badLength => 5
  | .msgOverflow => 6

/-- STATUS.POLICY as a bit (10_state R31). -/
def policyFlag : Policy → Bool
  | .raster => false
  | .lcg => true

/-- STATUS.SEQEND, the live view of the full-cycle detector: CFGOK = 1 and COUNT = MOD (10_state R29). -/
def seqEnd (s : State) : Bool := s.cfgok && s.count == s.mod

/-- STATUS as a read returns it, most-significant field first (10_state R24). -/
def statusWord (s : State) : Word :=
  0#12 ++ s.lastop ++ 0#3 ++ BitVec.ofBool (policyFlag s.policy) ++ BitVec.ofBool s.cvalid ++ BitVec.ofBool (seqEnd s) ++
    BitVec.ofBool s.rej ++ BitVec.ofBool s.cfgok ++ errCode s.err ++ 0#1 ++ stateCode s.state

end Sys2Proof.Machine
end

