-- ==== Sys2Proof/Machine/Registers.lean ====
section
/-! DEFINITION. The host register window (10_state R22, 20_memory R60 to R66): which register an offset reaches, what a read
returns and does, what a write does, and the register accesses the spec leaves without a meaning. -/

namespace Sys2Proof.Machine

/-- The registers of 10_state R22. -/
inductive Reg where
  | cmd | status | grid | msglen | msgaddr | msgdata | mod | mult | inc | seed | lcgs | count | lastidx | coord | reslen
  | capLo | capHi | reqLo | reqHi | bitcntLo | bitcntHi | shift
  /-- Offsets 0x58 to 0xFC (10_state R50). -/
  | reserved
deriving DecidableEq, Repr

/-- The register at a byte offset (10_state R22). -/
def Reg.ofOffset (off : Nat) : Reg :=
  match off with
  | 0x00 => .cmd
  | 0x04 => .status
  | 0x08 => .grid
  | 0x0C => .msglen
  | 0x10 => .msgaddr
  | 0x14 => .msgdata
  | 0x18 => .mod
  | 0x1C => .mult
  | 0x20 => .inc
  | 0x24 => .seed
  | 0x28 => .lcgs
  | 0x2C => .count
  | 0x30 => .lastidx
  | 0x34 => .coord
  | 0x38 => .reslen
  | 0x3C => .capLo
  | 0x40 => .capHi
  | 0x44 => .reqLo
  | 0x48 => .reqHi
  | 0x4C => .bitcntLo
  | 0x50 => .bitcntHi
  | 0x54 => .shift
  | _ => .reserved

/-- The low half of a 64-bit view (10_state R46 to R48). -/
def loHalf (n : Nat) : Word := toWord n

/-- The high half of a 64-bit view. -/
def hiHalf (n : Nat) : Word := toWord (n / 2 ^ 32)

/-- capacity = 3·MOD, 0 while CFGOK = 0 (10_state R46, 43_codec R190). -/
def capacity (s : State) : Nat := if s.cfgok then 3 * s.mod.toNat else 0

/-- What a read of RESLEN shows: 0 while TRAVERSING (70_reset R267), else the register. DEDUCED (log 25): the register itself
is kept in an embed traversal, since EMBED does not write it (10_state R45, 43_codec R192). -/
def reslenView (s : State) : Word := if s.state = .traversing then 0 else s.reslen

/-- What a read of a register without side effects returns (10_state R22 to R50). CMD and the reserved offsets read 0;
MSGDATA has no storage and is read by `readMsgdata`. -/
def regView (r : Reg) (s : State) : Word :=
  match r with
  | .cmd => 0
  | .status => statusWord s
  | .grid => s.grid
  | .msglen => s.msglen
  | .msgaddr => s.msgaddr
  | .msgdata => 0
  | .mod => s.mod
  | .mult => s.mult
  | .inc => s.inc
  | .seed => s.seed
  | .lcgs => s.lcgs
  | .count => s.count
  | .lastidx => s.lastidx
  | .coord => s.coord
  | .reslen => reslenView s
  | .capLo => loHalf (capacity s)
  | .capHi => hiHalf (capacity s)
  | .reqLo => loHalf (frameLength s)
  | .reqHi => hiHalf (frameLength s)
  | .bitcntLo => loHalf s.bitcnt.toNat
  | .bitcntHi => hiHalf s.bitcnt.toNat
  | .shift => s.sr.setWidth 32
  | .reserved => 0

/-- MSGADDR <- (MSGADDR + 1) mod 2^32 (20_memory R64, R65). -/
def bumpMsgaddr (s : State) : State := { s with msgaddr := s.msgaddr + 1 }

/-- RegRead(MSGDATA): the byte at MSGADDR, or 0 beyond the buffer, then the increment (20_memory R64); while TRAVERSING it
returns 0 and is rejected (20_memory R66). -/
def readMsgdata (s : State) : Word × State :=
  if s.state = .traversing then (0, reject s)
  else
    (if s.msgaddr.toNat < s.cfg.msgbufBytes then (memRead s.msgaddr.toNat s).setWidth 32 else 0, bumpMsgaddr s)

/-- RegWrite(MSGDATA, v), STATE ≠ TRAVERSING: v[7:0] to MSGADDR if that is in the buffer, then the increment
(20_memory R65). -/
def storeMsgdata (v : Word) (s : State) : State :=
  bumpMsgaddr (if s.msgaddr.toNat < s.cfg.msgbufBytes then memWrite s.msgaddr.toNat (v.extractLsb' 0 8) s else s)

/-- What a register read returns, and the state after it. -/
def readReg (r : Reg) (s : State) : Word × State :=
  match r with
  | .msgdata => readMsgdata s
  | r => (regView r s, s)

/-- A write to GRID, MSGLEN, MSGADDR or MSGDATA: rejected while TRAVERSING (10_state R52). -/
def guarded (f : State → State) (s : State) : Result :=
  if s.state = .traversing then .next (reject s) else .next (f s)

/-- RegWrite(CMD, w): the dispatch of 40_control R110. A reserved opcode is rejected (30_encoding R97); a command's own
meaning holds its rejection while TRAVERSING and its prologue (log 13). -/
def cmdWrite (w : Word) (s : State) : Result :=
  match decode w with
  | .ok i => exec i s
  | .error _ => .next (reject s)

/-- RegWrite(off, v) (20_memory R61): CMD is dispatched, GRID to MSGDATA are written, writes to read-only registers and
reserved offsets are ignored (10_state R50, R51). -/
def regWrite (off : Nat) (v : Word) (s : State) : Result :=
  match Reg.ofOffset off with
  | .cmd => cmdWrite v s
  | .grid => guarded (fun s => { s with grid := v }) s
  | .msglen => guarded (fun s => { s with msglen := v }) s
  | .msgaddr => guarded (fun s => { s with msgaddr := v }) s
  | .msgdata => guarded (storeMsgdata v) s
  | _ => .next s

/-- The host takes the value its read returned. -/
def hostTakes (v : Word) (s : State) : State := { s with host := { s.host with lastRead := v } }

/-- RegRead(off) (20_memory R61), with the value to the host. -/
def regRead (off : Nat) (s : State) : State := hostTakes (readReg (Reg.ofOffset off) s).1 (readReg (Reg.ofOffset off) s).2

/-- The register offset a host access reaches; the accesses of 20_memory R62 and those outside BASE to BASE + 0xFF (R86) are
refused (log 10). -/
def accessOffset (c : Config) (addr bits : Nat) : Except Refusal Nat :=
  if bits ≠ 32 then .error .accessWidth
  else if addr < c.base ∨ c.base + 0xFF < addr then .error .accessOutsideWindow
  else if (addr - c.base) % 4 ≠ 0 then .error .accessMisaligned
  else .ok (addr - c.base)

/-- A host register read at a host address. -/
def busRead (addr bits : Nat) (s : State) : Result :=
  match accessOffset s.cfg addr bits with
  | .ok off => .next (regRead off s)
  | .error r => .refused r

/-- A host register write at a host address. -/
def busWrite (addr bits : Nat) (v : Word) (s : State) : Result :=
  match accessOffset s.cfg addr bits with
  | .ok off => regWrite off v s
  | .error r => .refused r

end Sys2Proof.Machine
end

