-- ==== Sys2Proof/Machine/HostProgram.lean ====
section
/-! DEFINITION. Host programs (30_encoding R101, R102): how one statement is performed, and how a source program with labels
and pseudo-instructions becomes the statements the host performs. -/

namespace Sys2Proof.Machine

/-- The host moves to a statement. -/
def hostAt (pc : Nat) (s : State) : State := { s with host := { s.host with pc := pc } }

/-- The check of `RD reg == v`: recorded, never branched on (30_encoding R101). -/
def hostChecks (v : Word) (s : State) : State :=
  { s with host := { s.host with checkFailed := s.host.checkFailed || s.host.lastRead != v } }

/-- What the host does with the outcome of a checked read. -/
def thenCheck (v : Word) : Result → Result
  | .next s => .next (hostChecks v s)
  | .fault f => .fault f
  | .refused r => .refused r

/-- The host program's next statement; a host whose program is over does nothing (log 12). -/
def hostTurn (s : State) : Result :=
  match s.host.program[s.host.pc]? with
  | none => .next s
  | some (.wr off v) => busWrite (s.cfg.base + off) 32 v (hostAt (s.host.pc + 1) s)
  | some (.rd off) => busRead (s.cfg.base + off) 32 (hostAt (s.host.pc + 1) s)
  | some (.rdEq off v) => thenCheck v (busRead (s.cfg.base + off) 32 (hostAt (s.host.pc + 1) s))
  | some (.ifGoto c target) => .next (hostAt (if c.holds s.host.lastRead then target else s.host.pc + 1) s)

/-! ### Source programs -/

/-- A line of a host program (30_encoding R101, R102); labels are numbers. -/
inductive HostLine where
  | wr (off : Nat) (v : Word)
  | rd (off : Nat)
  | rdEq (off : Nat) (v : Word)
  /-- A command mnemonic on its own line. -/
  | cmd (i : Instr)
  | label (l : Nat)
  | ifGoto (cond : FieldTest) (l : Nat)
  /-- `PASSWORD "p1 ... pk"`, as its code points. -/
  | password (cps : List Nat)
  /-- `LOADMSG b0, ..., b(L-1)`. -/
  | loadMsg (bytes : List Byte)
  /-- `GRIDSET W, H`. -/
  | gridSet (w h : Nat)
  /-- `WAIT`. -/
  | wait
  /-- `READMSG n`. -/
  | readMsg (n : Nat)
deriving DecidableEq, Repr

/-- A write of a command's word to CMD (30_encoding R101). -/
def cmdStmt (i : Instr) : HostStmt := .wr 0x00 (encode i)

/-- The poll of WAIT: STATUS[2:0] = 1, that is, STATE = TRAVERSING (30_encoding R102). -/
def stillTraversing : FieldTest := { hi := 2, lo := 0, val := 1 }

/-- The statements of a line that begins at position `pc`, labels looked up by `addr` (30_encoding R101, R102). -/
def HostLine.expand (addr : Nat → Nat) (pc : Nat) : HostLine → List HostStmt
  | .wr off v => [.wr off v]
  | .rd off => [.rd off]
  | .rdEq off v => [.rdEq off v]
  | .cmd i => [cmdStmt i]
  | .label _ => []
  | .ifGoto c l => [.ifGoto c (addr l)]
  | .password cps => cps.map fun cp => cmdStmt (.addcp cp)
  | .loadMsg bytes =>
    .wr 0x10 0 :: (bytes.map fun b => HostStmt.wr 0x14 (b.setWidth 32)) ++ [.wr 0x0C (toWord bytes.length)]
  | .gridSet w h => [.wr 0x08 (packGrid w h)]
  | .wait => [.rd 0x04, .ifGoto stillTraversing pc]
  | .readMsg n => .wr 0x10 0 :: List.replicate n (.rd 0x14)

/-- The position of a label, counting statements from `pc`. DESIGN CHOICE (log 24): 0 for a label the program lacks
(`HostLine.wellFormed` asks that it be there), and the first of its lines for a label defined on several. -/
def labelAddr (l : Nat) : Nat → List HostLine → Nat
  | _, [] => 0
  | pc, x :: xs => if x = .label l then pc else labelAddr l (pc + (x.expand (fun _ => 0) 0).length) xs

/-- The statements of the lines from position `pc` on. -/
def expandFrom (addr : Nat → Nat) : Nat → List HostLine → List HostStmt
  | _, [] => []
  | pc, x :: xs => x.expand addr pc ++ expandFrom addr (pc + (x.expand addr pc).length) xs

/-- The program a model runs: a model expands pseudo-instructions before running (30_encoding R102). -/
def assemble (lines : List HostLine) : List HostStmt := expandFrom (fun l => labelAddr l 0 lines) 0 lines

/-- A register offset an access may name (20_memory R61). -/
def offsetOk (off : Nat) : Bool := off % 4 == 0 && decide (off ≤ 0xFC)

/-- A line a host may write: offsets that exist, operands that fit, fields inside a register, labels that are there. -/
def HostLine.wellFormed (lines : List HostLine) : HostLine → Bool
  | .wr off _ => offsetOk off
  | .rd off => offsetOk off
  | .rdEq off _ => offsetOk off
  | .cmd i => i.wellFormed
  | .label _ => true
  | .ifGoto c l => decide (c.lo ≤ c.hi ∧ c.hi < 32) && lines.contains (.label l)
  | .password cps => cps.all fun cp => decide (cp ≤ cpMax)
  | .loadMsg bytes => decide (bytes.length < 2 ^ 32)
  | .gridSet w h => decide (w < 2 ^ 16 ∧ h < 2 ^ 16)
  | .wait => true
  | .readMsg _ => true

end Sys2Proof.Machine
end

