-- ==== Sys2Proof/Machine/ImagePath.lean ====
section
/-! DEFINITION. The host's own path to the image (20_memory R78), and what it costs during a traversal (70_reset R266). -/

namespace Sys2Proof.Machine

/-- The host takes the pixel its read returned. -/
def hostTakesPixel (p : Pixel) (s : State) : State := { s with host := { s.host with lastPixel := p } }

/-- A host read of a pixel: its current value; any value during an embed (70_reset R266). -/
def imageRead (x y : Nat) (s : State) : Result :=
  if x < s.image.width ∧ y < s.image.height then
    if s.state = .traversing ∧ s.opk = .embed then .next (hostTakesPixel (drawPixel s).1 (drawPixel s).2)
    else .next (hostTakesPixel (s.image.pixel (y * s.image.width + x)) s)
  else .refused .noSuchPixel

/-- The bookkeeping of a host write during a traversal: the pixel is raced, and an extract that had not yet read it is
tainted (70_reset R266; log 7). -/
def markRace (k : Nat) (s : State) : State :=
  { s with raced := if s.raced.contains k then s.raced else k :: s.raced,
           tainted := s.tainted || (s.opk == .extract && !alreadyEmitted s k) }

/-- A host write of a pixel. -/
def imageWrite (x y : Nat) (p : Pixel) (s : State) : Result :=
  if x < s.image.width ∧ y < s.image.height then
    let k := y * s.image.width + x
    let t := { s with image := s.image.setPixel k p }
    .next (if s.state = .traversing then markRace k t else t)
  else .refused .noSuchPixel

/-- The host attaches an image (70_reset R265 step 1): the listed pixels, the others as the host left them. An image of
another size while CFGOK = 1 no longer matches the grid (70_reset R270; log 6). During a traversal this is a write of every
pixel (log 7). -/
def attachImage (w h : Nat) (pixels : List Pixel) (s : State) : Result :=
  let t := { s with
    image := Image.fill { width := w, height := h, epoch := s.fresh, cells := [] } 0 (pixels.take (w * h)),
    fresh := s.fresh + 1,
    gridMatches := s.gridMatches && (w == s.image.width && h == s.image.height) }
  .next (if s.state = .traversing then
      { t with raced := List.range (w * h), tainted := s.tainted || s.opk == .extract }
    else t)

end Sys2Proof.Machine
end

