-- ==== Sys2Proof/Machine/Turns.lean ====
section
/-! DEFINITION. The atomic steps of the agents (20_memory R80), one for each turn of the agenda, and the step taken when the
agenda is used up. -/

namespace Sys2Proof.Machine

/-- The engine's turn: its step is enabled exactly when STATE = TRAVERSING (40_control R115); otherwise nothing happens
(log 12). -/
def engineTurn (s : State) : Result := if s.state = .traversing then engineStep s else .next s

/-- One turn (log 1). -/
def takeTurn (t : Turn) (s : State) : Result :=
  match t with
  | .host => hostTurn s
  | .engine => engineTurn s
  | .reset => .next (resetBlock s)
  | .busRead addr bits => busRead addr bits s
  | .busWrite addr bits v => busWrite addr bits v s
  | .imageRead x y => imageRead x y s
  | .imageWrite x y p => imageWrite x y p s
  | .attach w h pixels => attachImage w h pixels s

/-- The step when no turn is listed: the engine, which is weakly fair, finishes a traversal; then the host program goes on
(70_reset R274; log 1). -/
def defaultTurn (s : State) : Result := if s.state = .traversing then engineStep s else hostTurn s

/-- A host write of `w` to CMD, as a turn: where a command enters the machine (10_state R23). -/
def cmdTurn (c : Config) (w : Word) : Turn := .busWrite c.base 32 w

end Sys2Proof.Machine
end

