-- ==== Sys2Proof/Machine/Step.lean ====
section
/-! DEFINITION. One step of the whole system, and how a command word is placed for the next step. -/

namespace Sys2Proof.Machine

/-- One atomic step of the total order of 20_memory R80: the agenda's first turn, or the default turn. -/
def step (s : State) : Host.Outcome State Fault Refusal :=
  match s.agenda with
  | [] => defaultTurn s
  | t :: rest => takeTurn t { s with agenda := rest }

/-- The state whose next step is the host's write of this word to CMD. The block fetches nothing (20_memory R83): a command
runs because the host writes it (log 2). -/
def State.withFetchWord (s : State) (nbits w : Nat) : State :=
  { s with agenda := cmdTurn s.cfg (tableWord nbits w) :: s.agenda }

end Sys2Proof.Machine
end

