-- ==== Sys2Proof/Machine/Assembler.lean ====
section
/-! DEFINITION. The command syntax of 30_encoding R100: a line of text to a command, and its word. -/

namespace Sys2Proof.Machine

/-- Text without its leading blanks. -/
def skipBlanks (cs : List Char) : List Char := cs.dropWhile (· == ' ')

/-- Nothing but blanks, or a comment after `;` (30_encoding R100). -/
def lineEnds (cs : List Char) : Bool :=
  match skipBlanks cs with
  | [] => true
  | c :: _ => c == ';'

/-- A digit's value, decimal or hexadecimal in either case (log 17). -/
def digitValue (c : Char) : Nat :=
  if '0' ≤ c ∧ c ≤ '9' then c.toNat - 48
  else if 'a' ≤ c ∧ c ≤ 'f' then c.toNat - 87
  else if 'A' ≤ c ∧ c ≤ 'F' then c.toNat - 55
  else 16

/-- The number at the head of a text in a base, and the rest; none where no digit stands. -/
def readDigits (base : Nat) (cs : List Char) : Option (Nat × List Char) :=
  let ds := cs.takeWhile fun c => digitValue c < base
  if ds.isEmpty then none
  else some (ds.foldl (fun n c => n * base + digitValue c) 0, cs.dropWhile fun c => digitValue c < base)

/-- A number (decimal, or hexadecimal with prefix `0x`) or a character literal (30_encoding R100). -/
def readOperand : List Char → Option (Nat × List Char)
  | '\'' :: c :: '\'' :: rest => some (c.toNat, rest)
  | '0' :: 'x' :: rest => readDigits 16 rest
  | cs => readDigits 10 cs

/-- The mnemonics that stand alone (30_encoding R100): a policy suffix selects P. -/
def plainMnemonics : List (List Char × Instr) :=
  [("NOP".toList, .nop), ("SETUP".toList, .setup), ("EMBED.RASTER".toList, .embed .raster), ("EMBED.LCG".toList, .embed .lcg),
   ("EXTRACT.RASTER".toList, .extract .raster), ("EXTRACT.LCG".toList, .extract .lcg),
   ("GEN_START.RASTER".toList, .genStart .raster), ("GEN_START.LCG".toList, .genStart .lcg), ("GEN_NEXT".toList, .genNext)]

/-- A line of assembler text (30_encoding R100); none where it is not valid syntax, as for a bare EMBED. -/
def parseLine (cs : List Char) : Option Instr :=
  let cs := skipBlanks cs
  let word := cs.takeWhile fun c => c != ' ' && c != ';'
  let rest := cs.dropWhile fun c => c != ' ' && c != ';'
  if word = "ADDCP".toList then
    match readOperand (skipBlanks rest) with
    | some (n, rest) => if lineEnds rest ∧ n ≤ cpMax then some (.addcp n) else none
    | none => none
  else if lineEnds rest then (plainMnemonics.find? fun r => r.1 == word).map Prod.snd
  else none

/-- The word a line of assembler text stands for (30_encoding R100). -/
def assembleLine (cs : List Char) : Option Word := (parseLine cs).map encode

end Sys2Proof.Machine
end

