-- ==== Sys2Proof/Safety.lean ====
section
/-! DEFINITION. What every state between steps satisfies (10_state R55 and the rules each clause names), in the terms the
claims use. Every clause is a decidable proposition. -/

namespace Sys2Proof.Machine

/-- A configuration is valid: MOD = WL·HL ≥ 1, S < MOD, SEED < MOD, N ≤ MOD, LASTIDX < MOD (10_state R55). -/
abbrev ConfiguredOk (s : State) : Prop :=
  s.cfgok = true →
    s.mod.toNat = s.wl.toNat * s.hl.toNat ∧ 1 ≤ s.mod.toNat ∧ s.lcgs.toNat < s.mod.toNat ∧ s.seed.toNat < s.mod.toNat ∧
      s.count.toNat ≤ s.mod.toNat ∧ s.lastidx.toNat < s.mod.toNat

/-- INC and MULT are those of MOD (10_state R27, R38, R39). -/
abbrev ParametersOk (s : State) : Prop :=
  s.cfgok = true → s.inc = toWord (incr s.mod.toNat) ∧ s.mult = toWord (mult s.mod.toNat)

/-- A valid COORD lies in the grid (10_state R55) and is the coordinate of LASTIDX (10_state R44). -/
abbrev CoordOk (s : State) : Prop :=
  s.cfgok = true → s.cvalid = true →
    gridW s.coord < s.wl ∧ gridH s.coord < s.hl ∧
      s.coord = packCoord (s.lastidx.toNat % s.wl.toNat) (s.lastidx.toNat / s.wl.toNat)

/-- Without a configuration the generator registers are 0 and no traversal runs (10_state R55; R53 for WL and HL). -/
abbrev UnconfiguredOk (s : State) : Prop :=
  s.cfgok = false →
    s.mod = 0 ∧ s.mult = 0 ∧ s.inc = 0 ∧ s.seed = 0 ∧ s.lcgs = 0 ∧ s.count = 0 ∧ s.wl = 0 ∧ s.hl = 0 ∧ s.state ≠ .traversing

/-- A traversal is configured and has values left (10_state R55), has a kind (R54), and has moved three bits a step. -/
abbrev TraversingOk (s : State) : Prop :=
  s.state = .traversing →
    s.cfgok = true ∧ s.count.toNat < s.mod.toNat ∧ s.opk ≠ .none ∧ s.bitcnt.toNat = 3 * s.count.toNat

/-- An embed traversal has bits left (10_state R55), and its message fits the buffer and the grid (43_codec R192). -/
abbrev EmbedOk (s : State) : Prop :=
  s.state = .traversing → s.opk = .embed →
    s.bitcnt.toNat < frameLength s ∧ frameLength s ≤ 3 * s.mod.toNat ∧ s.msglen.toNat ≤ s.cfg.msgbufBytes ∧ s.lastop = 3

/-- An extract traversal has found no sentinel (10_state R55), and its RESLEN is 0 since its start (43_codec R199). -/
abbrev ExtractOk (s : State) : Prop :=
  s.state = .traversing → s.opk = .extract → sentinelFound s = false ∧ s.reslen = 0 ∧ s.lastop = 4

/-- ERR fits STATE (10_state R26). -/
abbrev ErrOk (s : State) : Prop :=
  (s.state = .idle ∨ s.state = .traversing ∨ s.state = .done → s.err = .none) ∧
    (s.state = .exhausted → s.err = .none ∨ s.err = .exhausted) ∧
    (s.state = .failed → s.err ≠ .none ∧ s.err ≠ .exhausted)

/-- LASTOP is an accepted opcode (10_state R32) and BITCNT stays below 2^35 (10_state R48). -/
abbrev CountersOk (s : State) : Prop := s.lastop.toNat ≤ 6 ∧ s.bitcnt.toNat < 2 ^ 35

/-- MSGBUF is in canonical form and inside the buffer (20_memory R63). -/
abbrev BufferOk (s : State) : Prop := s.msgbuf.wf ∧ ∀ c ∈ s.msgbuf, c.1 < s.cfg.msgbufBytes

/-- The image is in canonical form and inside its dimensions (20_memory R68). -/
abbrev ImageOk (s : State) : Prop := s.image.cells.wf ∧ ∀ c ∈ s.image.cells, c.1 < 3 * (s.image.width * s.image.height)

/-- Races belong to a traversal and to the image, and only an extract is tainted (log 7); a matching image has the latched
dimensions (log 6). -/
abbrev BookkeepingOk (s : State) : Prop :=
  (s.state ≠ .traversing → s.raced = [] ∧ s.tainted = false) ∧ (s.tainted = true → s.opk = .extract) ∧ (∀ k ∈ s.raced, k < s.image.width * s.image.height) ∧
    (s.gridMatches = true → s.cfgok = true ∧ s.image.width = s.wl.toNat ∧ s.image.height = s.hl.toNat)

/-- The invariants of the machine: those of 10_state R55, and what the rules named above add. -/
structure Inv (s : State) : Prop where
  configured : ConfiguredOk s
  parameters : ParametersOk s
  coord : CoordOk s
  unconfigured : UnconfiguredOk s
  traversing : TraversingOk s
  embed : EmbedOk s
  extract : ExtractOk s
  err : ErrOk s
  counters : CountersOk s
  buffer : BufferOk s
  image : ImageOk s
  bookkeeping : BookkeepingOk s

/-- `k` steps of the machine. -/
def run (k : Nat) (s : State) : Result := Host.Core.run Sys2Proof.core k s

/-- Commands issued one after the other, stopping at the first that has no next state. -/
def execAll : List Instr → State → Result
  | [], s => .next s
  | i :: is, s =>
    match exec i s with
    | .next t => execAll is t
    | .fault f => .fault f
    | .refused r => .refused r

/-- The step's turn is the host's write of `w` to CMD, as a turn of its own or as its program's next statement. -/
abbrev WritesCmd (w : Word) (s : State) : Prop :=
  (∃ rest, s.agenda = .busWrite s.cfg.base 32 w :: rest) ∨
    (((s.agenda = [] ∧ s.state ≠ .traversing) ∨ ∃ rest, s.agenda = .host :: rest) ∧ s.host.program[s.host.pc]? = some (.wr 0x00 w))

/-- The step's turn in a traversal is the engine's, listed or by default (log 1). -/
abbrev EngineMoves (s : State) : Prop := s.agenda = [] ∨ ∃ rest, s.agenda = .engine :: rest

/-- Nobody but the engine moves: no turn is listed and the host has not touched the image in this traversal. -/
abbrev Undisturbed (s : State) : Prop := s.agenda = [] ∧ s.gridMatches = true ∧ s.raced = [] ∧ s.tainted = false

end Sys2Proof.Machine
end

