-- ==== Sys2Proof/Certificates/Slice0/Obligations.lean ====
section
/-! DEFINITION. The statements about the model. Where a statement names a field that is the model's own (`gridMatches`,
`fresh`, `raced`, `tainted`), it does so only to leave it open or unchanged. -/

open Sys2Proof Sys2Proof.Machine

/-! ### Encoding -/

/-- 30_encoding R91 to R96, R100: no operand bit is lost on the way to a word and back. -/
def Obligations.DecodeInvertsEncode : Prop := ∀ i : Instr, i.wellFormed = true → decode (encode i) = .ok i

/-- The other direction: a decoded word, ignored bits cleared, is the command's own word (30_encoding R95, R96). -/
def Obligations.EncodeGivesBackUsedBits : Prop :=
  ∀ (w : Word) (i : Instr), decode w = .ok i → i.wellFormed = true ∧ encode i = w &&& usedMask w

/-- 30_encoding R92. -/
def Obligations.OpcodeAloneSelectsCommand : Prop :=
  ∀ w : Word,
    ((∃ i, decode w = .ok i) ↔ (w >>> 28).toNat < 7) ∧
      ∀ i, decode w = .ok i → w &&& 0xF0000000 = (i.opcode.setWidth 32 : Word) <<< 28

/-- 30_encoding R95: the bits a command ignores, written out by opcode. -/
def Obligations.IgnoredBitsHaveNoEffect : Prop :=
  ∀ w v : Word,
    w.extractLsb' 28 4 = v.extractLsb' 28 4 →
    (w.extractLsb' 28 4 = 2#4 → w.extractLsb' 0 21 = v.extractLsb' 0 21) →
    (w.extractLsb' 28 4 = 3#4 ∨ w.extractLsb' 28 4 = 4#4 ∨ w.extractLsb' 28 4 = 5#4 → w.getLsbD 0 = v.getLsbD 0) →
    decode w = decode v ∧ ∀ s, cmdWrite w s = cmdWrite v s

/-- 30_encoding R96, R98 and the words of 95_test_vectors X-ENC. -/
def Obligations.CommandWordsDecodeAsListed : Prop :=
  decode 0x00000000 = .ok .nop ∧ decode 0x1FE00000 = .ok .setup ∧ decode 0x2FE0006B = .ok (.addcp 0x6B) ∧
    decode 0x2FFFFFFF = .ok (.addcp 0x1FFFFF) ∧ decode 0x30000001 = .ok (.embed .lcg) ∧
    decode 0x40000000 = .ok (.extract .raster) ∧ decode 0x50000001 = .ok (.genStart .lcg) ∧
    decode 0x60000000 = .ok .genNext ∧ decode 0x70000000 = .error (.reservedOpcode 7)

/-! ### Dispatch and the step -/

/-- A turn in which the host writes a command's word to CMD runs exactly that command (10_state R23, 20_memory R83), and a
word placed for the next step runs there (log 2). -/
def Obligations.StepRunsDecodedCommand : Prop :=
  (∀ (s : State) (w : Word) (i : Instr) (rest : List Turn),
    s.agenda = .busWrite s.cfg.base 32 w :: rest → decode w = .ok i → step s = exec i { s with agenda := rest }) ∧
  (∀ (s : State) (nbits w : Nat) (i : Instr), decodeTableWord nbits w = some i → step (s.withFetchWord nbits w) = exec i s)

/-- 40_control R110, 30_encoding R97: rejection, or the command that op selects. -/
def Obligations.CmdWriteIsDispatched : Prop :=
  ∀ (w : Word) (s : State),
    (s.state = .traversing ∨ 7 ≤ (w.extractLsb' 28 4).toNat → cmdWrite w s = .next { s with rej := true }) ∧
    (¬(s.state = .traversing ∨ 7 ≤ (w.extractLsb' 28 4).toNat) →
      ∃ i, decode w = .ok i ∧ i.opcode = w.extractLsb' 28 4 ∧ cmdWrite w s = exec i s)

/-- 40_control R111: an accepted command sees and leaves what the prologue writes. -/
def Obligations.AcceptedCommandRunsPrologue : Prop :=
  ∀ (i : Instr) (s : State), s.state ≠ .traversing →
    exec i s = exec i { s with state := .idle, err := .none, rej := false, lastop := i.opcode } ∧
    ∀ t, exec i s = .next t →
      t.lastop = i.opcode ∧ t.rej = false ∧ (t.err = .none → t.state = .idle ∨ t.state = .traversing) ∧
        (t.err ≠ .none → t.state = .failed)

/-- 60_exceptions R241: the seven outcomes of a CMD write, in order of priority. -/
def Obligations.CommandChecksHavePriority : Prop :=
  ∀ (i : Instr) (s t : State), exec i s = .next t →
    (s.state = .traversing → t = { s with rej := true }) ∧
    (s.state ≠ .traversing →
      let needsConfig := i ≠ .nop ∧ i ≠ .setup
      let isEmbed := i = .embed .raster ∨ i = .embed .lcg
      (t.err = .invalidGrid ↔ i = .setup ∧ (gridW s.grid = 0 ∨ gridH s.grid = 0)) ∧
      (t.err = .notConfigured ↔ needsConfig ∧ s.cfgok = false) ∧
      (t.err = .badLength ↔ isEmbed ∧ s.cfgok = true ∧ s.cfg.msgbufBytes < s.msglen.toNat) ∧
      (t.err = .capacityExceeded ↔
        isEmbed ∧ s.cfgok = true ∧ s.msglen.toNat ≤ s.cfg.msgbufBytes ∧ 3 * s.mod.toNat < 8 * s.msglen.toNat + 16) ∧
      t.err ≠ .exhausted ∧ t.err ≠ .msgOverflow)

/-! ### The commands -/

/-- 40_control R112. -/
def Obligations.NopRunsPrologueOnly : Prop :=
  ∀ s : State,
    (s.state ≠ .traversing →
      exec .nop s = .next { s with state := .idle, err := .none, rej := false, lastop := 0 }) ∧
    (s.state = .traversing → exec .nop s = .next { s with rej := true })

/-- 41_sequence R138, valid grid: every register SETUP writes, at the value the rule gives; nothing else changes (the model's
own `gridMatches` is left open). -/
def Obligations.SetupLatchesValidGrid : Prop :=
  ∀ s : State, s.state ≠ .traversing → gridW s.grid ≠ 0 → gridH s.grid ≠ 0 →
    ∃ b, exec .setup s = .next { s with
      state := .idle, err := .none, rej := false, lastop := 1, seed := 0, lcgs := 0, count := 0, lastidx := 0, coord := 0,
      policy := .raster, cvalid := false, cfgok := true, wl := gridW s.grid, hl := gridH s.grid,
      mod := toWord ((gridW s.grid).toNat * (gridH s.grid).toNat),
      inc := toWord (incr ((gridW s.grid).toNat * (gridH s.grid).toNat)),
      mult := toWord (mult ((gridW s.grid).toNat * (gridH s.grid).toNat)), gridMatches := b }

/-- 41_sequence R138, 60_exceptions R235: a zero grid. -/
def Obligations.SetupRefusesZeroGrid : Prop :=
  ∀ s : State, s.state ≠ .traversing → gridW s.grid = 0 ∨ gridH s.grid = 0 →
    ∃ b, exec .setup s = .next { s with
      state := .failed, err := .invalidGrid, rej := false, lastop := 1, seed := 0, lcgs := 0, count := 0, lastidx := 0,
      coord := 0, policy := .raster, cvalid := false, cfgok := false, wl := 0, hl := 0, mod := 0, inc := 0, mult := 0,
      gridMatches := b }

/-- 41_sequence R120, R122, R125: what SETUP stores is exact, not truncated. -/
def Obligations.SetupStoresExactParameters : Prop :=
  ∀ s t : State, s.state ≠ .traversing → exec .setup s = .next t → t.cfgok = true →
    let m := (gridW s.grid).toNat * (gridH s.grid).toNat
    1 ≤ m ∧ m ≤ 4294836225 ∧ t.mod.toNat = m ∧ t.inc.toNat = incr m ∧ t.mult.toNat = mult m

/-- 60_exceptions R236: the five commands that need a configuration, without one. -/
def Obligations.UnconfiguredCommandsFail : Prop :=
  ∀ (i : Instr) (s : State), s.state ≠ .traversing → s.cfgok = false → i ≠ .nop → i ≠ .setup →
    exec i s = .next { s with state := .failed, err := .notConfigured, rej := false, lastop := i.opcode }

/-- 41_sequence R139. -/
def Obligations.AddcpAddsCodePointModuloMod : Prop :=
  ∀ (cp : Nat) (s : State), s.state ≠ .traversing → s.cfgok = true →
    exec (.addcp cp) s = .next { s with
      state := .idle, err := .none, rej := false, lastop := 2, seed := toWord ((s.seed.toNat + cp) % s.mod.toNat) }

/-- 41_sequence R127: after any password, SEED is the sum of its code points modulo m, in whatever order they came. -/
def Obligations.SeedIsSumOfCodePoints : Prop :=
  ∀ (cps : List Nat) (s : State), s.state ≠ .traversing → s.cfgok = true → 1 ≤ s.mod.toNat → s.seed.toNat < s.mod.toNat →
    ∃ t, execAll (cps.map .addcp) s = .next t ∧ t.seed.toNat = (s.seed.toNat + cps.sum) % s.mod.toNat ∧ t.mod = s.mod

/-- 41_sequence R140, R130. -/
def Obligations.GenStartInitialisesGenerator : Prop :=
  ∀ s : State, s.state ≠ .traversing → s.cfgok = true →
    exec (.genStart .raster) s = .next { s with
      state := .idle, err := .none, rej := false, lastop := 5, policy := .raster, lcgs := 0, count := 0, cvalid := false } ∧
    exec (.genStart .lcg) s = .next { s with
      state := .idle, err := .none, rej := false, lastop := 5, policy := .lcg, lcgs := s.seed, count := 0, cvalid := false }

/-- 41_sequence R141 and R131, both cases: the emission written out, with the next state of each policy (R128, R129). -/
def Obligations.GenNextTakesOneValue : Prop :=
  ∀ s : State, s.state ≠ .traversing → s.cfgok = true →
    (s.count.toNat < s.mod.toNat →
      exec .genNext s = .next { s with
        state := .idle, err := .none, rej := false, lastop := 6, lastidx := s.lcgs,
        coord := BitVec.ofNat 16 (s.lcgs.toNat / s.wl.toNat) ++ BitVec.ofNat 16 (s.lcgs.toNat % s.wl.toNat),
        lcgs := toWord (if s.policy = .lcg then (s.mult.toNat * s.lcgs.toNat + s.inc.toNat) % s.mod.toNat
          else (s.lcgs.toNat + 1) % s.mod.toNat),
        count := s.count + 1, cvalid := true }) ∧
    (s.count = s.mod →
      exec .genNext s = .next { s with state := .idle, err := .none, rej := false, lastop := 6, cvalid := false })

/-- 43_codec R192 and R130: an embed that passes its checks starts; nothing but the named fields changes. That the
register RESLEN is not among them follows R192 and 10_state R45, beside 70_reset R267: the model's reading (log 25). -/
def Obligations.EmbedStartsTraversal : Prop :=
  ∀ (p : Policy) (s : State), s.state ≠ .traversing → s.cfgok = true → s.msglen.toNat ≤ s.cfg.msgbufBytes →
    8 * s.msglen.toNat + 16 ≤ 3 * s.mod.toNat →
    exec (.embed p) s = .next { s with
      state := .traversing, err := .none, rej := false, lastop := 3, policy := p,
      lcgs := (if p = .lcg then s.seed else 0), count := 0, cvalid := false, opk := .embed, bitcnt := 0 }

/-- 43_codec R192, 60_exceptions R237, R233: what a refused embed changes. -/
def Obligations.EmbedRefusalsChangeOnlyStatus : Prop :=
  ∀ (p : Policy) (s : State), s.state ≠ .traversing → s.cfgok = true →
    (s.cfg.msgbufBytes < s.msglen.toNat →
      exec (.embed p) s = .next { s with state := .failed, err := .badLength, rej := false, lastop := 3 }) ∧
    (s.msglen.toNat ≤ s.cfg.msgbufBytes → 3 * s.mod.toNat < 8 * s.msglen.toNat + 16 →
      exec (.embed p) s = .next { s with state := .failed, err := .capacityExceeded, rej := false, lastop := 3 })

/-- 43_codec R199 and R130. -/
def Obligations.ExtractStartsTraversal : Prop :=
  ∀ (p : Policy) (s : State), s.state ≠ .traversing → s.cfgok = true →
    exec (.extract p) s = .next { s with
      state := .traversing, err := .none, rej := false, lastop := 4, policy := p,
      lcgs := (if p = .lcg then s.seed else 0), count := 0, cvalid := false, opk := .extract, bitcnt := 0, sr := 0,
      reslen := 0 }

/-- The frame of all commands: no command writes a byte of MSGBUF or of the image (43_codec R192, R199 leave the pixels to the
engine), a register the host owns, the host, the turns to come, or a parameter; only EMBED and EXTRACT write BITCNT and OPK,
only EXTRACT writes SR and RESLEN (10_state R45, R48, R49, R54). -/
def Obligations.CommandsFrame : Prop :=
  ∀ (i : Instr) (s t : State), exec i s = .next t →
    (∀ a, bufByte t a = bufByte s a) ∧ (∀ a, t.image.byte a = s.image.byte a) ∧ t.grid = s.grid ∧ t.msglen = s.msglen ∧
      t.msgaddr = s.msgaddr ∧ t.host = s.host ∧ t.agenda = s.agenda ∧ t.cfg = s.cfg ∧
      ((∀ p, i ≠ .extract p) → t.sr = s.sr ∧ t.reslen = s.reslen) ∧
      ((∀ p, i ≠ .extract p) → (∀ p, i ≠ .embed p) → t.bitcnt = s.bitcnt ∧ t.opk = s.opk)

/-- Only an accepted SETUP and reset write the configuration (10_state R27, R37, R38, R39, R53): no other command, no pixel
step and no other register access does, and no step does whose turn is neither a reset nor a write of SETUP to CMD outside a
traversal. -/
def Obligations.OnlySetupWritesConfiguration : Prop :=
  ∀ s t : State,
    ((∃ i, i ≠ .setup ∧ exec i s = .next t) ∨ engineStep s = .next t ∨ (∃ off v, off ≠ 0 ∧ regWrite off v s = .next t) ∨
      (∃ off, t = regRead off s) ∨
      (step s = .next t ∧ (∀ rest, s.agenda ≠ .reset :: rest) ∧
        ∀ w, WritesCmd w s → decode w = .ok .setup → s.state = .traversing)) →
    t.cfgok = s.cfgok ∧ t.mod = s.mod ∧ t.mult = s.mult ∧ t.inc = s.inc ∧ t.wl = s.wl ∧ t.hl = s.hl

/-! ### The register window -/

/-- 10_state R24: the fields of STATUS, with the codes of R25 and R26 as numbers, reserved bits 0, writes ignored, reads
without side effect, all 0 at reset. -/
def Obligations.StatusFieldsAreLaidOut : Prop :=
  ∀ s : State,
    let w := statusWord s
    (∀ c ∈ [(EngineState.idle, 0), (.traversing, 1), (.done, 2), (.exhausted, 3), (.failed, 4)],
        s.state = c.1 → w.extractLsb' 0 3 = c.2) ∧
      w.extractLsb' 3 1 = 0 ∧
      (∀ c ∈ [(ErrCode.none, 0), (.capacityExceeded, 1), (.exhausted, 2), (.invalidGrid, 3), (.notConfigured, 4),
          (.badLength, 5), (.msgOverflow, 6)],
        s.err = c.1 → w.extractLsb' 4 4 = c.2) ∧
      w.getLsbD 8 = s.cfgok ∧ w.getLsbD 9 = s.rej ∧ w.getLsbD 10 = (s.cfgok && s.count == s.mod) ∧
      w.getLsbD 11 = s.cvalid ∧ w.getLsbD 12 = (s.policy == .lcg) ∧ w.extractLsb' 13 3 = 0 ∧
      w.extractLsb' 16 4 = s.lastop ∧ w.extractLsb' 20 12 = 0 ∧
      (∀ v, regWrite 0x04 v s = .next s) ∧ regRead 0x04 s = { s with host := { s.host with lastRead := w } } ∧
      statusWord State.reset = 0

/-- 10_state R22: what a read of each register with storage of its own returns; RESLEN shows 0 while TRAVERSING
(70_reset R267; that it is kept behind that in an embed is the model's reading, log 25). -/
def Obligations.RegistersReadBackTheirContents : Prop :=
  ∀ s : State,
    (regRead 0x00 s).host.lastRead = 0 ∧ (regRead 0x08 s).host.lastRead = s.grid ∧
      (regRead 0x0C s).host.lastRead = s.msglen ∧ (regRead 0x10 s).host.lastRead = s.msgaddr ∧
      (regRead 0x18 s).host.lastRead = s.mod ∧ (regRead 0x1C s).host.lastRead = s.mult ∧
      (regRead 0x20 s).host.lastRead = s.inc ∧ (regRead 0x24 s).host.lastRead = s.seed ∧
      (regRead 0x28 s).host.lastRead = s.lcgs ∧ (regRead 0x2C s).host.lastRead = s.count ∧
      (regRead 0x30 s).host.lastRead = s.lastidx ∧ (regRead 0x34 s).host.lastRead = s.coord ∧
      (regRead 0x38 s).host.lastRead = (if s.state = .traversing then 0 else s.reslen) ∧ (regRead 0x54 s).host.lastRead = s.sr.setWidth 32

/-- 10_state R46, R47's formula, R48: the three 64-bit views. The REQ clauses read R47 by its formula and not by its remark
that REQ_HI[31:3] is always 0, which contradicts it: the model's reading (log 21). -/
def Obligations.WideViewsAreExact : Prop :=
  ∀ s : State,
    let pair := fun lo hi => (regRead lo s).host.lastRead.toNat + 2 ^ 32 * (regRead hi s).host.lastRead.toNat
    pair 0x3C 0x40 = (if s.cfgok = true then 3 * s.mod.toNat else 0) ∧ pair 0x44 0x48 = 8 * s.msglen.toNat + 16 ∧
      pair 0x4C 0x50 = s.bitcnt.toNat ∧ (regRead 0x40 s).host.lastRead.toNat < 4 ∧ (regRead 0x48 s).host.lastRead.toNat < 16

/-- 10_state R47's remark that REQ_HI[31:3] is always 0: it FAILS of the rule's own formula (95_test_vectors E4: MSGLEN =
0xFFFFFFFF gives REQ_HI = 8). -/
def Obligations.ReqHiStaysBelowEight : Prop := ∀ s : State, (regRead 0x48 s).host.lastRead.toNat < 8

/-- 10_state R51 and R50: read-only registers and reserved offsets. -/
def Obligations.ReadOnlyAndReservedIgnoreWrites : Prop :=
  (∀ (off : Nat) (v : Word) (s : State),
    off ∈ [0x04, 0x18, 0x1C, 0x20, 0x24, 0x28, 0x2C, 0x30, 0x34, 0x38, 0x3C, 0x40, 0x44, 0x48, 0x4C, 0x50, 0x54] →
    regWrite off v s = .next s) ∧
  (∀ (off : Nat) (s : State), 0x58 ≤ off → off ≤ 0xFC →
    regRead off s = { s with host := { s.host with lastRead := 0 } } ∧ ∀ v, regWrite off v s = .next s)

/-- 10_state R52, R33 to R35, 20_memory R66: host accesses to GRID, MSGLEN, MSGADDR and MSGDATA. -/
def Obligations.HostAccessesRejectedWhileTraversing : Prop :=
  ∀ (v : Word) (s : State),
    (s.state = .traversing →
      (∀ off ∈ [0x08, 0x0C, 0x10, 0x14], regWrite off v s = .next { s with rej := true }) ∧
        regRead 0x14 s = { s with rej := true, host := { s.host with lastRead := 0 } }) ∧
    (s.state ≠ .traversing →
      regWrite 0x08 v s = .next { s with grid := v } ∧ regWrite 0x0C v s = .next { s with msglen := v } ∧
        regWrite 0x10 v s = .next { s with msgaddr := v })

/-- 20_memory R64. -/
def Obligations.MsgdataReadReturnsByteAndAdvances : Prop :=
  ∀ s : State, s.state ≠ .traversing →
    regRead 0x14 s = { s with
      msgaddr := toWord ((s.msgaddr.toNat + 1) % 2 ^ 32),
      host := { s.host with lastRead :=
        if s.msgaddr.toNat < s.cfg.msgbufBytes then (bufByte s s.msgaddr.toNat).setWidth 32 else 0 } }

/-- 20_memory R65, with every byte it does not store to. -/
def Obligations.MsgdataWriteStoresByteAndAdvances : Prop :=
  ∀ (v : Word) (s : State), s.state ≠ .traversing →
    ∃ m, regWrite 0x14 v s = .next { s with msgaddr := toWord ((s.msgaddr.toNat + 1) % 2 ^ 32), msgbuf := m } ∧
      ∀ a, bufByte { s with msgbuf := m } a =
        if a = s.msgaddr.toNat ∧ s.msgaddr.toNat < s.cfg.msgbufBytes then v.extractLsb' 0 8 else bufByte s a

/-- 20_memory R79: reads without side effects, and idempotent writes. -/
def Obligations.OnlyCmdAndMsgdataHaveSideEffects : Prop :=
  ∀ (off : Nat) (s : State), off ≠ 0x14 →
    (∃ v, regRead off s = { s with host := { s.host with lastRead := v } }) ∧
    (off ≠ 0 → ∀ v t, regWrite off v s = .next t → regWrite off v t = .next t)

/-- 20_memory R62, R86: which host accesses reach a register, and that the others are refused. -/
def Obligations.UndefinedAccessesAreRefused : Prop :=
  ∀ (addr bits : Nat) (v : Word) (s : State),
    (bits = 32 ∧ s.cfg.base ≤ addr ∧ addr ≤ s.cfg.base + 0xFC ∧ (addr - s.cfg.base) % 4 = 0 →
      busRead addr bits s = .next (regRead (addr - s.cfg.base) s) ∧ busWrite addr bits v s = regWrite (addr - s.cfg.base) v s) ∧
    (¬(bits = 32 ∧ s.cfg.base ≤ addr ∧ addr ≤ s.cfg.base + 0xFC ∧ (addr - s.cfg.base) % 4 = 0) →
      ∃ r, busRead addr bits s = .refused r ∧ busWrite addr bits v s = .refused r)

/-! ### Host programs -/

/-- 30_encoding R102: the pseudo-instructions. -/
def Obligations.PseudoInstructionsExpand : Prop :=
  ∀ (addr : Nat → Nat) (pc : Nat) (cps : List Nat) (bytes : List Byte) (w h n : Nat),
    (HostLine.password cps).expand addr pc = cps.map (fun cp => .wr 0x00 (encode (.addcp cp))) ∧
    (HostLine.loadMsg bytes).expand addr pc =
      [.wr 0x10 0] ++ bytes.map (fun b => .wr 0x14 (b.setWidth 32)) ++ [.wr 0x0C (toWord bytes.length)] ∧
    (HostLine.gridSet w h).expand addr pc = [.wr 0x08 (toWord (h <<< 16 ||| w))] ∧
    HostLine.wait.expand addr pc = [.rd 0x04, .ifGoto { hi := 2, lo := 0, val := 1 } pc] ∧
    (HostLine.readMsg n).expand addr pc = [.wr 0x10 0] ++ List.replicate n (.rd 0x14)

/-! ### Reset and invariants -/

/-- 70_reset R260, R264, 10_state R56: a reset turn, whatever the state (MSGBUF is left open, R263, and the pixels the host
raced in the traversal it abandons, log 7). -/
def Obligations.ResetGivesResetValues : Prop :=
  ∀ (s : State) (rest : List Turn), s.agenda = .reset :: rest →
    ∃ m k e, step s = .next { State.reset with
      image := m, host := s.host, agenda := rest, cfg := s.cfg, fresh := k, bufEpoch := e } ∧
      (s.raced = [] → m = s.image) ∧ m.width = s.image.width ∧ m.height = s.image.height ∧
      (∀ l, l ∉ s.raced → m.pixel l = s.image.pixel l) ∧
    State.reset.state = .idle ∧ State.reset.err = .none ∧ State.reset.cfgok = false ∧ State.reset.rej = false ∧
      State.reset.cvalid = false ∧ State.reset.policy = .raster ∧ statusWord State.reset = 0 ∧ State.reset.opk = .none ∧
      [State.reset.grid, State.reset.msglen, State.reset.msgaddr, State.reset.mod, State.reset.mult, State.reset.inc,
        State.reset.seed, State.reset.lcgs, State.reset.count, State.reset.lastidx, State.reset.coord,
        State.reset.reslen] = List.replicate 12 0 ∧
      State.reset.bitcnt = 0 ∧ State.reset.sr = 0 ∧ State.reset.wl = 0 ∧ State.reset.hl = 0

/-- 10_state R55 at reset. -/
def Obligations.InvariantHoldsAtReset : Prop := Inv State.reset

/-- 10_state R55: from every state that satisfies them, a step of any agent keeps the invariants; and no step faults, since
every caller checks the emission's precondition (41_sequence R131). -/
def Obligations.StepKeepsInvariant : Prop :=
  ∀ s : State, Inv s → (∀ t, step s = .next t → Inv t) ∧ ∀ f, step s ≠ .fault f

/-- 43_codec R207: STATE changes only along the listed transitions, each by its event. -/
def Obligations.StateChangesOnlyAsListed : Prop :=
  ∀ s t : State, Inv s → step s = .next t →
    (s.state = .traversing →
      t.state = .traversing ∨ (t.state = .idle ∧ ∃ rest, s.agenda = .reset :: rest) ∨
        (EngineMoves s ∧
          ((t.state = .done ∧ t.err = .none) ∨ (s.opk = .extract ∧ t.state = .failed ∧ t.err = .msgOverflow) ∨
            (s.opk = .extract ∧ t.state = .exhausted ∧ t.err = .none)))) ∧
    (s.state ≠ .traversing →
      t.state = s.state ∨ (t.state = .idle ∧ ∃ rest, s.agenda = .reset :: rest) ∨
        ∃ w i, WritesCmd w s ∧ decode w = .ok i ∧
          ((∃ p, i = .embed p ∨ i = .extract p) → t.state = .traversing ∨ t.state = .failed) ∧
          ((¬∃ p, i = .embed p ∨ i = .extract p) → t.state = .idle ∨ t.state = .failed))

/-! ### The generator -/

/-- 41_sequence R121: the search finds the first candidate that is coprime to m. -/
def Obligations.IncrementIsFirstCoprimeCandidate : Prop :=
  ∀ m : Nat, 1 ≤ m →
    ∃ k, incr m = (m / 2 ||| 1) + 2 * k ∧ Nat.gcd (incr m) m = 1 ∧ ∀ j < k, Nat.gcd ((m / 2 ||| 1) + 2 * j) m ≠ 1

/-- 41_sequence R122. -/
def Obligations.IncrementProperties : Prop :=
  ∀ m : Nat, 1 ≤ m →
    incr m % 2 = 1 ∧ Nat.gcd (incr m) m = 1 ∧ m / 2 ≤ incr m ∧ incr m ≤ max 1 (m - 1) ∧
    (if m % 4 = 3 ∧ Nat.gcd ((m - 1) / 2) m = 1 then incr m = (m - 1) / 2 else m ≤ 2 * incr m)

/-- 41_sequence R123. -/
def Obligations.RadicalIsProductOfDistinctPrimes : Prop := ∀ m : Nat, 1 ≤ m → rad m = ∏ p ∈ m.primeFactors, p

/-- 41_sequence R125, its bounds, and the squarefree case it draws from them. -/
def Obligations.MultiplierBounds : Prop :=
  ∀ m : Nat, 1 ≤ m →
    2 ≤ mult m ∧ mult m ≤ m + 1 ∧
      (Squarefree m → mult m = m + 1 ∧ ∀ c v, lcgNext (mult m) c m v = (v + c) % m)

/-- 41_sequence R125's remark read as an equivalence: it FAILS of the rules' own numbers (m = 4 gives a = 5). -/
def Obligations.MultiplierIsSuccessorExactlyWhenSquarefree : Prop :=
  ∀ m : Nat, 1 ≤ m → (mult m = m + 1 ↔ Squarefree m)

/-- 41_sequence R126: the Hull–Dobell conditions. -/
def Obligations.HullDobellConditionsHold : Prop :=
  ∀ m : Nat, 1 ≤ m →
    Nat.gcd (incr m) m = 1 ∧ (∀ p, p.Prime → p ∣ m → p ∣ mult m - 1) ∧ (4 ∣ m → 4 ∣ mult m - 1)

/-- 41_sequence R136: under either policy the m values emitted are the residues 0 … m − 1, each once, and their coordinates
are the cells of the grid, each once. -/
def Obligations.SequenceIsPermutation : Prop :=
  ∀ s : State, Inv s → s.cfgok = true →
    (emissions s.mod.toNat s).Perm (List.range s.mod.toNat) ∧
    ∀ x < s.wl.toNat, ∀ y < s.hl.toNat,
      ((emissions s.mod.toNat s).map fun v => (v % s.wl.toNat, v / s.wl.toNat)).count (x, y) = 1

/-- 41_sequence R134: after m emissions the state is the start state again. -/
def Obligations.SequenceReturnsToStart : Prop :=
  ∀ s : State, Inv s → s.cfgok = true → (Nat.iterate advance s.mod.toNat s).lcgs = s.lcgs

/-- 41_sequence R135: the raster sequence, and its coordinates. -/
def Obligations.RasterOrderIsRowMajor : Prop :=
  ∀ s : State, s.policy = .raster → s.lcgs = 0 →
    emissions s.mod.toNat s = List.range s.mod.toNat ∧
      ∀ n < s.mod.toNat, coordX (Nat.iterate advance n s) = n % s.wl.toNat ∧ coordY (Nat.iterate advance n s) = n / s.wl.toNat

/-- 41_sequence R132, 20_memory R72, R73: the coordinate lies in the grid, and its linear index is the state value. -/
def Obligations.MapperStaysInGrid : Prop :=
  ∀ s : State, Inv s → s.cfgok = true →
    coordX s < s.wl.toNat ∧ coordY s < s.hl.toNat ∧ coordY s * s.wl.toNat + coordX s = s.lcgs.toNat

/-! ### The framer -/

/-- 42_framer R162 to R164: the serializer's bits are the frame, and the frame has T bits. -/
def Obligations.SerializerProducesFrame : Prop :=
  ∀ s : State,
    (frame (bufBytes s s.msglen.toNat)).length = 8 * s.msglen.toNat + 16 ∧
      ∀ k < 8 * s.msglen.toNat + 16, (frame (bufBytes s s.msglen.toNat))[k]? = some (frameBit s k)

/-- 42_framer R166: after appends from SR = 0 and BITCNT = 0, SR holds the last 16 bits, the most recent in bit 0. -/
def Obligations.ShiftRegisterHoldsLastBits : Prop :=
  ∀ (b : List Bool) (s : State), s.sr = 0 → s.bitcnt = 0 → b.length < 2 ^ 64 →
    let t := b.foldl (fun s x => appendBit x s) s
    t.bitcnt.toNat = b.length ∧ ∀ i < 16, t.sr.getLsbD i = (b.reverse[i]?).getD false

/-- 42_framer R171: two occurrences of the sentinel cannot overlap. -/
def Obligations.SentinelOccurrencesDoNotOverlap : Prop :=
  ∀ (b : List Bool) (i j : Nat), occursAt b i = true → occursAt b j = true → i < j → i + 16 ≤ j

/-- 42_framer R174. -/
def Obligations.FrameUnframesUnlessSentinelInside : Prop :=
  ∀ m : List Byte, unframe (frame m) = some m ↔ ∀ i, occursAt (m.flatMap byteBits) i = false

/-! ### The codec -/

/-- 43_codec R193. -/
def Obligations.LsbInsertKeepsUpperBits : Prop :=
  ∀ (ch : Byte) (b : Bool),
    insertLsb ch b &&& 0xFE = ch &&& 0xFE ∧ lsb (insertLsb ch b) = b ∧ (lsb ch = b → insertLsb ch b = ch)

/-- 43_codec R194: one embed step, channel by channel, and everything it leaves alone (RESLEN too, log 25). -/
def Obligations.EmbedStepWritesOnePixel : Prop :=
  ∀ s : State, Inv s → Undisturbed s → s.state = .traversing → s.opk = .embed →
    ∃ t, step s = .next t ∧
      (∀ j < 3, channel j (t.image.pixel s.lcgs.toNat) =
        if s.bitcnt.toNat + j < frameLength s then
          insertLsb (channel j (s.image.pixel s.lcgs.toNat)) (frameBit s (s.bitcnt.toNat + j))
        else channel j (s.image.pixel s.lcgs.toNat)) ∧
      (∀ k, k ≠ s.lcgs.toNat → t.image.pixel k = s.image.pixel k) ∧
      t.bitcnt.toNat = min (frameLength s) (s.bitcnt.toNat + 3) ∧ t.count = s.count + 1 ∧ t.lastidx = s.lcgs ∧
      t.coord = packCoord (coordX s) (coordY s) ∧ t.lcgs.toNat = nextOf s s.lcgs.toNat ∧ t.cvalid = true ∧
      t.state = (if frameLength s ≤ s.bitcnt.toNat + 3 then .done else .traversing) ∧ t.err = .none ∧
      t.policy = s.policy ∧ t.seed = s.seed ∧ t.opk = s.opk ∧
      (∀ a, bufByte t a = bufByte s a) ∧ t.sr = s.sr ∧ t.reslen = s.reslen ∧ t.msglen = s.msglen ∧
      t.msgaddr = s.msgaddr ∧ t.grid = s.grid ∧ t.rej = s.rej ∧ t.lastop = s.lastop ∧ t.host = s.host

/-- 43_codec R208: EXTRACT and its pixel steps leave the image alone (a race the host itself made aside, log 7). -/
def Obligations.ExtractNeverWritesImage : Prop :=
  ∀ s t : State, s.raced = [] →
    (∃ p, exec (.extract p) s = .next t) ∨ (s.opk = .extract ∧ engineStep s = .next t) → t.image = s.image

/-- 43_codec R206, 70_reset R274: left to the engine, every traversal ends, in at most m steps from its start. -/
def Obligations.TraversalTerminates : Prop :=
  ∀ s : State, Inv s → s.state = .traversing → s.agenda = [] →
    ∃ k t, k ≤ s.mod.toNat - s.count.toNat ∧ run k s = .next t ∧ t.state ≠ .traversing

/-- 43_codec R197, R198: a whole embed. -/
def Obligations.EmbedWritesTheFrame : Prop :=
  ∀ s : State, Inv s → Undisturbed s → s.state = .traversing → s.opk = .embed → s.count = 0 →
    let n := (frameLength s + 2) / 3
    (∀ k < n, ∃ u, run k s = .next u ∧ u.state = .traversing) ∧
    ∃ t, run n s = .next t ∧ t.state = .done ∧ t.count.toNat = n ∧ t.bitcnt.toNat = frameLength s ∧
      (emissions n s).getLast? = some t.lastidx.toNat ∧ (emissions n s).Nodup ∧
      (∀ k, ∀ j < 3, channel j (t.image.pixel k) &&& 0xFE = channel j (s.image.pixel k) &&& 0xFE) ∧
      (∀ k, k ∉ emissions n s → t.image.pixel k = s.image.pixel k) ∧
      pixelBits t.image (emissions n s) =
        frame (bufBytes s s.msglen.toNat) ++ (pixelBits s.image (emissions n s)).drop (frameLength s)

/-- 42_framer R169, R170 and 43_codec R201, R203, R204: a whole extract is unframe of the bits it reads, and stops at the
bit that completes the first occurrence, inside a pixel if need be. With every byte it commits (42_framer R167), found or
not, and with what it leaves alone. -/
def Obligations.ExtractComputesUnframe : Prop :=
  ∀ s : State, Inv s → Undisturbed s → s.state = .traversing → s.opk = .extract → s.count = 0 → s.sr = 0 →
    ∃ n t, n ≤ s.mod.toNat ∧ run n s = .next t ∧ t.image = s.image ∧
      (∀ a, bufByte t a =
        if a < t.bitcnt.toNat / 8 ∧ a < s.cfg.msgbufBytes then
          regrouped (pixelBits s.image (emissions s.mod.toNat s)) a
        else bufByte s a) ∧
      t.sr = (((pixelBits s.image (emissions s.mod.toNat s)).take t.bitcnt.toNat).foldl (fun u x => appendBit x u) s).sr ∧
      t.lcgs = (Nat.iterate advance n s).lcgs ∧ t.coord = (Nat.iterate advance n s).coord ∧
      t.lastidx = (Nat.iterate advance n s).lastidx ∧ t.cvalid = true ∧ t.count.toNat = n ∧
      t.grid = s.grid ∧ t.msglen = s.msglen ∧ t.msgaddr = s.msgaddr ∧ t.seed = s.seed ∧ t.policy = s.policy ∧
      t.opk = s.opk ∧ t.rej = s.rej ∧ t.lastop = s.lastop ∧ t.cfgok = s.cfgok ∧ t.mod = s.mod ∧ t.mult = s.mult ∧
      t.inc = s.inc ∧ t.wl = s.wl ∧ t.hl = s.hl ∧ t.host = s.host ∧ t.agenda = s.agenda ∧ t.cfg = s.cfg ∧
      (unframe (pixelBits s.image (emissions s.mod.toNat s)) = none →
        n = s.mod.toNat ∧ t.state = .exhausted ∧ t.err = .none ∧ t.reslen = 0 ∧ t.count = s.mod ∧
          t.bitcnt.toNat = 3 * s.mod.toNat) ∧
      (∀ i, firstOccurrence 0 (pixelBits s.image (emissions s.mod.toNat s)) = some i →
        t.bitcnt.toNat = i + 16 ∧ n = (i + 16 + 2) / 3 ∧
          (emissions n s).getLast? = some t.lastidx.toNat) ∧
      (∀ d, unframe (pixelBits s.image (emissions s.mod.toNat s)) = some d →
        t.reslen.toNat = d.length ∧
        (d.length ≤ s.cfg.msgbufBytes → t.state = .done ∧ t.err = .none ∧ bufBytes t d.length = d) ∧
        (s.cfg.msgbufBytes < d.length → t.state = .failed ∧ t.err = .msgOverflow ∧
          bufBytes t s.cfg.msgbufBytes = d.take s.cfg.msgbufBytes))

/-- 43_codec R205: what an embed hid, an extract under the same policy finds, exactly when the message's own bits hold no
sentinel. -/
def Obligations.ExtractAfterEmbedFindsMessage : Prop :=
  ∀ (p : Policy) (s s₁ s₂ : State), Inv s → Undisturbed s → s.state ≠ .traversing →
    exec (.embed p) s = .next s₁ → s₁.state = .traversing → run ((frameLength s + 2) / 3) s₁ = .next s₂ →
    ∃ s₃ k t, exec (.extract p) s₂ = .next s₃ ∧ run k s₃ = .next t ∧ t.state ≠ .traversing ∧
      (∀ j < k, ∃ u, run j s₃ = .next u ∧ u.state = .traversing) ∧
      ((t.state = .done ∧ t.reslen = s.msglen ∧ bufBytes t s.msglen.toNat = bufBytes s s.msglen.toNat) ↔
        ∀ i, occursAt ((bufBytes s s.msglen.toNat).flatMap byteBits) i = false)

/-- 20_memory R78, 70_reset R266, where they give a value: the host's own path outside a traversal, and its reads during an
extract. -/
def Obligations.HostImagePathReadsAndWrites : Prop :=
  ∀ (x y : Nat) (p : Pixel) (s : State), x < s.image.width → y < s.image.height →
    let k := y * s.image.width + x
    (s.state ≠ .traversing →
      ∃ m, imageWrite x y p s = .next { s with image := m } ∧ m.width = s.image.width ∧ m.height = s.image.height ∧
        m.pixel k = p ∧ ∀ l, l ≠ k → m.pixel l = s.image.pixel l) ∧
    (s.state ≠ .traversing ∨ s.opk = .extract →
      imageRead x y s = .next { s with host := { s.host with lastPixel := s.image.pixel k } })
end

