-- ==== Sys2Proof/Laws/Memory.lean ====
section
/-! SUPPORT. The laws of memory: read after write, the canonical form, bounds; then the same for the message buffer and for
the image's pixels. -/

namespace Sys2Proof.Laws

open Sys2Proof Sys2Proof.Machine

/-! ### Bytes by address -/

theorem read_write_same (m : Memory) (a : Nat) (v : Byte) : (m.write a v).read a = some v := by
  induction m with
  | nil => simp [Memory.write, Memory.read]
  | cons c r ih =>
    obtain ⟨b, w⟩ := c
    rcases lt_trichotomy a b with h | h | h
    · simp [Memory.write, Memory.read, h]
    · simp [Memory.write, Memory.read, h]
    · simp [Memory.write, Memory.read, h.not_gt, h.ne, h.ne', ih]

theorem read_write_other (m : Memory) {a b : Nat} (v : Byte) (hab : b ≠ a) : (m.write a v).read b = m.read b := by
  induction m with
  | nil => simp [Memory.write, Memory.read, hab.symm]
  | cons c r ih =>
    obtain ⟨d, w⟩ := c
    rcases lt_trichotomy a d with h | h | h
    · simp [Memory.write, Memory.read, h, hab.symm]
    · subst h; simp [Memory.write, Memory.read, hab.symm]
    · simp [Memory.write, Memory.read, h.not_gt, h.ne', ih]

theorem read_write (m : Memory) (a b : Nat) (v : Byte) :
    (m.write a v).read b = if b = a then some v else m.read b := by
  split
  · next h => rw [h, read_write_same]
  · next h => rw [read_write_other m v h]

theorem mem_write {m : Memory} {a : Nat} {v : Byte} {c : Host.Cell} (h : c ∈ m.write a v) : c = (a, v) ∨ c ∈ m := by
  induction m with
  | nil => simpa [Memory.write] using h
  | cons d r ih =>
    obtain ⟨b, w⟩ := d
    simp only [Memory.write] at h
    split at h
    · simpa using h
    · split at h
      · rcases List.mem_cons.1 h with h | h
        · exact .inl h
        · exact .inr (List.mem_cons_of_mem _ h)
      · rcases List.mem_cons.1 h with h | h
        · exact .inr (h ▸ List.mem_cons_self)
        · rcases ih h with h | h
          · exact .inl h
          · exact .inr (List.mem_cons_of_mem _ h)

theorem wf_cons {c : Host.Cell} {m : Memory} : Memory.wf (c :: m) ↔ (∀ d ∈ m, c.1 < d.1) ∧ m.wf := by
  simp [Memory.wf, List.pairwise_cons]

/-- A write keeps the canonical form. -/
theorem write_wf {m : Memory} (a : Nat) (v : Byte) (h : m.wf) : (m.write a v).wf := by
  induction m with
  | nil => simp [Memory.write, Memory.wf]
  | cons d r ih =>
    obtain ⟨b, w⟩ := d
    obtain ⟨hb, hr⟩ := wf_cons.1 h
    simp only [Memory.write]
    split
    · next hab =>
      refine wf_cons.2 ⟨fun c hc => ?_, h⟩
      rcases List.mem_cons.1 hc with rfl | hc
      · exact hab
      · exact lt_trans hab (hb c hc)
    · split
      · next hab => subst hab; exact wf_cons.2 ⟨hb, hr⟩
      · next h₁ h₂ =>
        refine wf_cons.2 ⟨fun c hc => ?_, ih hr⟩
        rcases mem_write hc with rfl | hc
        · exact lt_of_le_of_ne (Nat.le_of_not_lt h₁) (Ne.symm h₂)
        · exact hb c hc

/-- A write below a bound keeps all addresses below it. -/
theorem write_bounded {m : Memory} {n a : Nat} (v : Byte) (h : ∀ c ∈ m, c.1 < n) (ha : a < n) :
    ∀ c ∈ m.write a v, c.1 < n := by
  intro c hc
  rcases mem_write hc with rfl | hc
  · exact ha
  · exact h c hc

theorem reset_memories_wf : State.reset.msgbuf.wf ∧ State.reset.image.cells.wf := by decide

/-! ### The message buffer -/

theorem bufByte_memWrite (s : State) (i a : Nat) (v : Byte) :
    bufByte (memWrite i v s) a = if a = i then v else bufByte s a := by
  simp only [bufByte, memWrite, read_write]
  split <;> rfl

theorem memWrite_bufferOk {s : State} {i : Nat} (v : Byte) (h : BufferOk s) (hi : i < s.cfg.msgbufBytes) :
    BufferOk (memWrite i v s) :=
  ⟨write_wf i v h.1, write_bounded v h.2 hi⟩

/-! ### The image -/

theorem byte_setPixel (m : Image) (k a : Nat) (p : Pixel) :
    (m.setPixel k p).byte a =
      if a = 3 * k + 2 then channel 2 p else if a = 3 * k + 1 then channel 1 p
      else if a = 3 * k then channel 0 p else m.byte a := by
  simp only [Image.byte, Image.setPixel, read_write]
  split
  · rfl
  · split
    · rfl
    · split <;> rfl

theorem pixel_setPixel_other (m : Image) {k l : Nat} (p : Pixel) (h : l ≠ k) : (m.setPixel k p).pixel l = m.pixel l := by
  simp only [Image.pixel, byte_setPixel]
  simp [show 3 * l ≠ 3 * k + 2 by omega, show 3 * l ≠ 3 * k + 1 by omega, h, show 3 * l + 1 ≠ 3 * k by omega,
    show 3 * l + 2 ≠ 3 * k by omega]

theorem channels_of_bytes (r g b : Byte) :
    channel 0 (r ++ g ++ b) = r ∧ channel 1 (r ++ g ++ b) = g ∧ channel 2 (r ++ g ++ b) = b := by
  refine ⟨?_, ?_, ?_⟩ <;>
  · ext i hi
    simp only [channel, BitVec.getElem_extractLsb', BitVec.getLsbD_append]
    interval_cases i <;> simp [← BitVec.getLsbD_eq_getElem]

theorem channel_pixel (m : Image) (k : Nat) :
    channel 0 (m.pixel k) = m.byte (3 * k) ∧ channel 1 (m.pixel k) = m.byte (3 * k + 1) ∧
      channel 2 (m.pixel k) = m.byte (3 * k + 2) :=
  channels_of_bytes _ _ _

theorem setPixel_wf {m : Image} (k : Nat) (p : Pixel) (h : m.cells.wf) : (m.setPixel k p).cells.wf :=
  write_wf _ _ (write_wf _ _ (write_wf _ _ h))

theorem setPixel_bounded {m : Image} {n k : Nat} (p : Pixel) (h : ∀ c ∈ m.cells, c.1 < 3 * n) (hk : k < n) :
    ∀ c ∈ (m.setPixel k p).cells, c.1 < 3 * n :=
  write_bounded _ (write_bounded _ (write_bounded _ h (by omega)) (by omega)) (by omega)

@[simp] theorem setPixel_width (m : Image) (k : Nat) (p : Pixel) : (m.setPixel k p).width = m.width := rfl
@[simp] theorem setPixel_height (m : Image) (k : Nat) (p : Pixel) : (m.setPixel k p).height = m.height := rfl
@[simp] theorem setPixel_epoch (m : Image) (k : Nat) (p : Pixel) : (m.setPixel k p).epoch = m.epoch := rfl

theorem fill_size (ps : List Pixel) (m : Image) (k : Nat) :
    (m.fill k ps).width = m.width ∧ (m.fill k ps).height = m.height := by
  induction ps generalizing m k with
  | nil => exact ⟨rfl, rfl⟩
  | cons p ps ih => exact ih (m.setPixel k p) (k + 1)

theorem fill_wf (ps : List Pixel) {m : Image} (k : Nat) (h : m.cells.wf) : (m.fill k ps).cells.wf := by
  induction ps generalizing m k with
  | nil => exact h
  | cons p ps ih => exact ih (k + 1) (setPixel_wf k p h)

theorem fill_bounded (ps : List Pixel) {m : Image} {n : Nat} (k : Nat) (h : ∀ c ∈ m.cells, c.1 < 3 * n)
    (hk : k + ps.length ≤ n) : ∀ c ∈ (m.fill k ps).cells, c.1 < 3 * n := by
  induction ps generalizing m k with
  | nil => exact h
  | cons p ps ih =>
    rw [List.length_cons] at hk
    exact ih (k + 1) (setPixel_bounded p h (by omega)) (by omega)

end Sys2Proof.Laws
end

