-- ==== Sys2Proof/Laws/State.lean ====
section
/-! SUPPORT. One lemma per field and shared update: what the field is afterwards. All hold by computation. -/

namespace Sys2Proof.Laws

open Sys2Proof Sys2Proof.Machine

variable (s : State)

/-! ### reject -/

@[simp] theorem reject_state : (reject s).state = s.state := rfl
@[simp] theorem reject_err : (reject s).err = s.err := rfl
@[simp] theorem reject_cfgok : (reject s).cfgok = s.cfgok := rfl
@[simp] theorem reject_rej : (reject s).rej = true := rfl
@[simp] theorem reject_cvalid : (reject s).cvalid = s.cvalid := rfl
@[simp] theorem reject_policy : (reject s).policy = s.policy := rfl
@[simp] theorem reject_lastop : (reject s).lastop = s.lastop := rfl
@[simp] theorem reject_grid : (reject s).grid = s.grid := rfl
@[simp] theorem reject_msglen : (reject s).msglen = s.msglen := rfl
@[simp] theorem reject_msgaddr : (reject s).msgaddr = s.msgaddr := rfl
@[simp] theorem reject_mod : (reject s).mod = s.mod := rfl
@[simp] theorem reject_mult : (reject s).mult = s.mult := rfl
@[simp] theorem reject_inc : (reject s).inc = s.inc := rfl
@[simp] theorem reject_seed : (reject s).seed = s.seed := rfl
@[simp] theorem reject_lcgs : (reject s).lcgs = s.lcgs := rfl
@[simp] theorem reject_count : (reject s).count = s.count := rfl
@[simp] theorem reject_lastidx : (reject s).lastidx = s.lastidx := rfl
@[simp] theorem reject_coord : (reject s).coord = s.coord := rfl
@[simp] theorem reject_reslen : (reject s).reslen = s.reslen := rfl
@[simp] theorem reject_bitcnt : (reject s).bitcnt = s.bitcnt := rfl
@[simp] theorem reject_sr : (reject s).sr = s.sr := rfl
@[simp] theorem reject_wl : (reject s).wl = s.wl := rfl
@[simp] theorem reject_hl : (reject s).hl = s.hl := rfl
@[simp] theorem reject_opk : (reject s).opk = s.opk := rfl
@[simp] theorem reject_msgbuf : (reject s).msgbuf = s.msgbuf := rfl
@[simp] theorem reject_image : (reject s).image = s.image := rfl
@[simp] theorem reject_host : (reject s).host = s.host := rfl
@[simp] theorem reject_agenda : (reject s).agenda = s.agenda := rfl
@[simp] theorem reject_cfg : (reject s).cfg = s.cfg := rfl
@[simp] theorem reject_fresh : (reject s).fresh = s.fresh := rfl
@[simp] theorem reject_bufEpoch : (reject s).bufEpoch = s.bufEpoch := rfl
@[simp] theorem reject_raced : (reject s).raced = s.raced := rfl
@[simp] theorem reject_tainted : (reject s).tainted = s.tainted := rfl
@[simp] theorem reject_gridMatches : (reject s).gridMatches = s.gridMatches := rfl

/-! ### prologue -/

@[simp] theorem prologue_state (op : BitVec 4) : (prologue op s).state = .idle := rfl
@[simp] theorem prologue_err (op : BitVec 4) : (prologue op s).err = .none := rfl
@[simp] theorem prologue_cfgok (op : BitVec 4) : (prologue op s).cfgok = s.cfgok := rfl
@[simp] theorem prologue_rej (op : BitVec 4) : (prologue op s).rej = false := rfl
@[simp] theorem prologue_cvalid (op : BitVec 4) : (prologue op s).cvalid = s.cvalid := rfl
@[simp] theorem prologue_policy (op : BitVec 4) : (prologue op s).policy = s.policy := rfl
@[simp] theorem prologue_lastop (op : BitVec 4) : (prologue op s).lastop = op := rfl
@[simp] theorem prologue_grid (op : BitVec 4) : (prologue op s).grid = s.grid := rfl
@[simp] theorem prologue_msglen (op : BitVec 4) : (prologue op s).msglen = s.msglen := rfl
@[simp] theorem prologue_msgaddr (op : BitVec 4) : (prologue op s).msgaddr = s.msgaddr := rfl
@[simp] theorem prologue_mod (op : BitVec 4) : (prologue op s).mod = s.mod := rfl
@[simp] theorem prologue_mult (op : BitVec 4) : (prologue op s).mult = s.mult := rfl
@[simp] theorem prologue_inc (op : BitVec 4) : (prologue op s).inc = s.inc := rfl
@[simp] theorem prologue_seed (op : BitVec 4) : (prologue op s).seed = s.seed := rfl
@[simp] theorem prologue_lcgs (op : BitVec 4) : (prologue op s).lcgs = s.lcgs := rfl
@[simp] theorem prologue_count (op : BitVec 4) : (prologue op s).count = s.count := rfl
@[simp] theorem prologue_lastidx (op : BitVec 4) : (prologue op s).lastidx = s.lastidx := rfl
@[simp] theorem prologue_coord (op : BitVec 4) : (prologue op s).coord = s.coord := rfl
@[simp] theorem prologue_reslen (op : BitVec 4) : (prologue op s).reslen = s.reslen := rfl
@[simp] theorem prologue_bitcnt (op : BitVec 4) : (prologue op s).bitcnt = s.bitcnt := rfl
@[simp] theorem prologue_sr (op : BitVec 4) : (prologue op s).sr = s.sr := rfl
@[simp] theorem prologue_wl (op : BitVec 4) : (prologue op s).wl = s.wl := rfl
@[simp] theorem prologue_hl (op : BitVec 4) : (prologue op s).hl = s.hl := rfl
@[simp] theorem prologue_opk (op : BitVec 4) : (prologue op s).opk = s.opk := rfl
@[simp] theorem prologue_msgbuf (op : BitVec 4) : (prologue op s).msgbuf = s.msgbuf := rfl
@[simp] theorem prologue_image (op : BitVec 4) : (prologue op s).image = s.image := rfl
@[simp] theorem prologue_host (op : BitVec 4) : (prologue op s).host = s.host := rfl
@[simp] theorem prologue_agenda (op : BitVec 4) : (prologue op s).agenda = s.agenda := rfl
@[simp] theorem prologue_cfg (op : BitVec 4) : (prologue op s).cfg = s.cfg := rfl
@[simp] theorem prologue_fresh (op : BitVec 4) : (prologue op s).fresh = s.fresh := rfl
@[simp] theorem prologue_bufEpoch (op : BitVec 4) : (prologue op s).bufEpoch = s.bufEpoch := rfl
@[simp] theorem prologue_raced (op : BitVec 4) : (prologue op s).raced = s.raced := rfl
@[simp] theorem prologue_tainted (op : BitVec 4) : (prologue op s).tainted = s.tainted := rfl
@[simp] theorem prologue_gridMatches (op : BitVec 4) : (prologue op s).gridMatches = s.gridMatches := rfl

/-! ### failWith -/

@[simp] theorem failWith_state (e : ErrCode) : (failWith e s).state = .failed := rfl
@[simp] theorem failWith_err (e : ErrCode) : (failWith e s).err = e := rfl
@[simp] theorem failWith_cfgok (e : ErrCode) : (failWith e s).cfgok = s.cfgok := rfl
@[simp] theorem failWith_rej (e : ErrCode) : (failWith e s).rej = s.rej := rfl
@[simp] theorem failWith_cvalid (e : ErrCode) : (failWith e s).cvalid = s.cvalid := rfl
@[simp] theorem failWith_policy (e : ErrCode) : (failWith e s).policy = s.policy := rfl
@[simp] theorem failWith_lastop (e : ErrCode) : (failWith e s).lastop = s.lastop := rfl
@[simp] theorem failWith_grid (e : ErrCode) : (failWith e s).grid = s.grid := rfl
@[simp] theorem failWith_msglen (e : ErrCode) : (failWith e s).msglen = s.msglen := rfl
@[simp] theorem failWith_msgaddr (e : ErrCode) : (failWith e s).msgaddr = s.msgaddr := rfl
@[simp] theorem failWith_mod (e : ErrCode) : (failWith e s).mod = s.mod := rfl
@[simp] theorem failWith_mult (e : ErrCode) : (failWith e s).mult = s.mult := rfl
@[simp] theorem failWith_inc (e : ErrCode) : (failWith e s).inc = s.inc := rfl
@[simp] theorem failWith_seed (e : ErrCode) : (failWith e s).seed = s.seed := rfl
@[simp] theorem failWith_lcgs (e : ErrCode) : (failWith e s).lcgs = s.lcgs := rfl
@[simp] theorem failWith_count (e : ErrCode) : (failWith e s).count = s.count := rfl
@[simp] theorem failWith_lastidx (e : ErrCode) : (failWith e s).lastidx = s.lastidx := rfl
@[simp] theorem failWith_coord (e : ErrCode) : (failWith e s).coord = s.coord := rfl
@[simp] theorem failWith_reslen (e : ErrCode) : (failWith e s).reslen = s.reslen := rfl
@[simp] theorem failWith_bitcnt (e : ErrCode) : (failWith e s).bitcnt = s.bitcnt := rfl
@[simp] theorem failWith_sr (e : ErrCode) : (failWith e s).sr = s.sr := rfl
@[simp] theorem failWith_wl (e : ErrCode) : (failWith e s).wl = s.wl := rfl
@[simp] theorem failWith_hl (e : ErrCode) : (failWith e s).hl = s.hl := rfl
@[simp] theorem failWith_opk (e : ErrCode) : (failWith e s).opk = s.opk := rfl
@[simp] theorem failWith_msgbuf (e : ErrCode) : (failWith e s).msgbuf = s.msgbuf := rfl
@[simp] theorem failWith_image (e : ErrCode) : (failWith e s).image = s.image := rfl
@[simp] theorem failWith_host (e : ErrCode) : (failWith e s).host = s.host := rfl
@[simp] theorem failWith_agenda (e : ErrCode) : (failWith e s).agenda = s.agenda := rfl
@[simp] theorem failWith_cfg (e : ErrCode) : (failWith e s).cfg = s.cfg := rfl
@[simp] theorem failWith_fresh (e : ErrCode) : (failWith e s).fresh = s.fresh := rfl
@[simp] theorem failWith_bufEpoch (e : ErrCode) : (failWith e s).bufEpoch = s.bufEpoch := rfl
@[simp] theorem failWith_raced (e : ErrCode) : (failWith e s).raced = s.raced := rfl
@[simp] theorem failWith_tainted (e : ErrCode) : (failWith e s).tainted = s.tainted := rfl
@[simp] theorem failWith_gridMatches (e : ErrCode) : (failWith e s).gridMatches = s.gridMatches := rfl

/-! ### memWrite -/

@[simp] theorem memWrite_state (i : Nat) (v : Byte) : (memWrite i v s).state = s.state := rfl
@[simp] theorem memWrite_err (i : Nat) (v : Byte) : (memWrite i v s).err = s.err := rfl
@[simp] theorem memWrite_cfgok (i : Nat) (v : Byte) : (memWrite i v s).cfgok = s.cfgok := rfl
@[simp] theorem memWrite_rej (i : Nat) (v : Byte) : (memWrite i v s).rej = s.rej := rfl
@[simp] theorem memWrite_cvalid (i : Nat) (v : Byte) : (memWrite i v s).cvalid = s.cvalid := rfl
@[simp] theorem memWrite_policy (i : Nat) (v : Byte) : (memWrite i v s).policy = s.policy := rfl
@[simp] theorem memWrite_lastop (i : Nat) (v : Byte) : (memWrite i v s).lastop = s.lastop := rfl
@[simp] theorem memWrite_grid (i : Nat) (v : Byte) : (memWrite i v s).grid = s.grid := rfl
@[simp] theorem memWrite_msglen (i : Nat) (v : Byte) : (memWrite i v s).msglen = s.msglen := rfl
@[simp] theorem memWrite_msgaddr (i : Nat) (v : Byte) : (memWrite i v s).msgaddr = s.msgaddr := rfl
@[simp] theorem memWrite_mod (i : Nat) (v : Byte) : (memWrite i v s).mod = s.mod := rfl
@[simp] theorem memWrite_mult (i : Nat) (v : Byte) : (memWrite i v s).mult = s.mult := rfl
@[simp] theorem memWrite_inc (i : Nat) (v : Byte) : (memWrite i v s).inc = s.inc := rfl
@[simp] theorem memWrite_seed (i : Nat) (v : Byte) : (memWrite i v s).seed = s.seed := rfl
@[simp] theorem memWrite_lcgs (i : Nat) (v : Byte) : (memWrite i v s).lcgs = s.lcgs := rfl
@[simp] theorem memWrite_count (i : Nat) (v : Byte) : (memWrite i v s).count = s.count := rfl
@[simp] theorem memWrite_lastidx (i : Nat) (v : Byte) : (memWrite i v s).lastidx = s.lastidx := rfl
@[simp] theorem memWrite_coord (i : Nat) (v : Byte) : (memWrite i v s).coord = s.coord := rfl
@[simp] theorem memWrite_reslen (i : Nat) (v : Byte) : (memWrite i v s).reslen = s.reslen := rfl
@[simp] theorem memWrite_bitcnt (i : Nat) (v : Byte) : (memWrite i v s).bitcnt = s.bitcnt := rfl
@[simp] theorem memWrite_sr (i : Nat) (v : Byte) : (memWrite i v s).sr = s.sr := rfl
@[simp] theorem memWrite_wl (i : Nat) (v : Byte) : (memWrite i v s).wl = s.wl := rfl
@[simp] theorem memWrite_hl (i : Nat) (v : Byte) : (memWrite i v s).hl = s.hl := rfl
@[simp] theorem memWrite_opk (i : Nat) (v : Byte) : (memWrite i v s).opk = s.opk := rfl
@[simp] theorem memWrite_msgbuf (i : Nat) (v : Byte) : (memWrite i v s).msgbuf = s.msgbuf.write i v := rfl
@[simp] theorem memWrite_image (i : Nat) (v : Byte) : (memWrite i v s).image = s.image := rfl
@[simp] theorem memWrite_host (i : Nat) (v : Byte) : (memWrite i v s).host = s.host := rfl
@[simp] theorem memWrite_agenda (i : Nat) (v : Byte) : (memWrite i v s).agenda = s.agenda := rfl
@[simp] theorem memWrite_cfg (i : Nat) (v : Byte) : (memWrite i v s).cfg = s.cfg := rfl
@[simp] theorem memWrite_fresh (i : Nat) (v : Byte) : (memWrite i v s).fresh = s.fresh := rfl
@[simp] theorem memWrite_bufEpoch (i : Nat) (v : Byte) : (memWrite i v s).bufEpoch = s.bufEpoch := rfl
@[simp] theorem memWrite_raced (i : Nat) (v : Byte) : (memWrite i v s).raced = s.raced := rfl
@[simp] theorem memWrite_tainted (i : Nat) (v : Byte) : (memWrite i v s).tainted = s.tainted := rfl
@[simp] theorem memWrite_gridMatches (i : Nat) (v : Byte) : (memWrite i v s).gridMatches = s.gridMatches := rfl

/-! ### genInit -/

@[simp] theorem genInit_state (p : Policy) : (genInit p s).state = s.state := rfl
@[simp] theorem genInit_err (p : Policy) : (genInit p s).err = s.err := rfl
@[simp] theorem genInit_cfgok (p : Policy) : (genInit p s).cfgok = s.cfgok := rfl
@[simp] theorem genInit_rej (p : Policy) : (genInit p s).rej = s.rej := rfl
@[simp] theorem genInit_cvalid (p : Policy) : (genInit p s).cvalid = false := rfl
@[simp] theorem genInit_policy (p : Policy) : (genInit p s).policy = p := rfl
@[simp] theorem genInit_lastop (p : Policy) : (genInit p s).lastop = s.lastop := rfl
@[simp] theorem genInit_grid (p : Policy) : (genInit p s).grid = s.grid := rfl
@[simp] theorem genInit_msglen (p : Policy) : (genInit p s).msglen = s.msglen := rfl
@[simp] theorem genInit_msgaddr (p : Policy) : (genInit p s).msgaddr = s.msgaddr := rfl
@[simp] theorem genInit_mod (p : Policy) : (genInit p s).mod = s.mod := rfl
@[simp] theorem genInit_mult (p : Policy) : (genInit p s).mult = s.mult := rfl
@[simp] theorem genInit_inc (p : Policy) : (genInit p s).inc = s.inc := rfl
@[simp] theorem genInit_seed (p : Policy) : (genInit p s).seed = s.seed := rfl
@[simp] theorem genInit_lcgs (p : Policy) : (genInit p s).lcgs = startOf p s := rfl
@[simp] theorem genInit_count (p : Policy) : (genInit p s).count = 0 := rfl
@[simp] theorem genInit_lastidx (p : Policy) : (genInit p s).lastidx = s.lastidx := rfl
@[simp] theorem genInit_coord (p : Policy) : (genInit p s).coord = s.coord := rfl
@[simp] theorem genInit_reslen (p : Policy) : (genInit p s).reslen = s.reslen := rfl
@[simp] theorem genInit_bitcnt (p : Policy) : (genInit p s).bitcnt = s.bitcnt := rfl
@[simp] theorem genInit_sr (p : Policy) : (genInit p s).sr = s.sr := rfl
@[simp] theorem genInit_wl (p : Policy) : (genInit p s).wl = s.wl := rfl
@[simp] theorem genInit_hl (p : Policy) : (genInit p s).hl = s.hl := rfl
@[simp] theorem genInit_opk (p : Policy) : (genInit p s).opk = s.opk := rfl
@[simp] theorem genInit_msgbuf (p : Policy) : (genInit p s).msgbuf = s.msgbuf := rfl
@[simp] theorem genInit_image (p : Policy) : (genInit p s).image = s.image := rfl
@[simp] theorem genInit_host (p : Policy) : (genInit p s).host = s.host := rfl
@[simp] theorem genInit_agenda (p : Policy) : (genInit p s).agenda = s.agenda := rfl
@[simp] theorem genInit_cfg (p : Policy) : (genInit p s).cfg = s.cfg := rfl
@[simp] theorem genInit_fresh (p : Policy) : (genInit p s).fresh = s.fresh := rfl
@[simp] theorem genInit_bufEpoch (p : Policy) : (genInit p s).bufEpoch = s.bufEpoch := rfl
@[simp] theorem genInit_raced (p : Policy) : (genInit p s).raced = s.raced := rfl
@[simp] theorem genInit_tainted (p : Policy) : (genInit p s).tainted = s.tainted := rfl
@[simp] theorem genInit_gridMatches (p : Policy) : (genInit p s).gridMatches = s.gridMatches := rfl

/-! ### advance -/

@[simp] theorem advance_state : (advance s).state = s.state := rfl
@[simp] theorem advance_err : (advance s).err = s.err := rfl
@[simp] theorem advance_cfgok : (advance s).cfgok = s.cfgok := rfl
@[simp] theorem advance_rej : (advance s).rej = s.rej := rfl
@[simp] theorem advance_cvalid : (advance s).cvalid = true := rfl
@[simp] theorem advance_policy : (advance s).policy = s.policy := rfl
@[simp] theorem advance_lastop : (advance s).lastop = s.lastop := rfl
@[simp] theorem advance_grid : (advance s).grid = s.grid := rfl
@[simp] theorem advance_msglen : (advance s).msglen = s.msglen := rfl
@[simp] theorem advance_msgaddr : (advance s).msgaddr = s.msgaddr := rfl
@[simp] theorem advance_mod : (advance s).mod = s.mod := rfl
@[simp] theorem advance_mult : (advance s).mult = s.mult := rfl
@[simp] theorem advance_inc : (advance s).inc = s.inc := rfl
@[simp] theorem advance_seed : (advance s).seed = s.seed := rfl
@[simp] theorem advance_lcgs : (advance s).lcgs = toWord (nextOf s s.lcgs.toNat) := rfl
@[simp] theorem advance_count : (advance s).count = toWord (s.count.toNat + 1) := rfl
@[simp] theorem advance_lastidx : (advance s).lastidx = s.lcgs := rfl
@[simp] theorem advance_coord : (advance s).coord = packCoord (coordX s) (coordY s) := rfl
@[simp] theorem advance_reslen : (advance s).reslen = s.reslen := rfl
@[simp] theorem advance_bitcnt : (advance s).bitcnt = s.bitcnt := rfl
@[simp] theorem advance_sr : (advance s).sr = s.sr := rfl
@[simp] theorem advance_wl : (advance s).wl = s.wl := rfl
@[simp] theorem advance_hl : (advance s).hl = s.hl := rfl
@[simp] theorem advance_opk : (advance s).opk = s.opk := rfl
@[simp] theorem advance_msgbuf : (advance s).msgbuf = s.msgbuf := rfl
@[simp] theorem advance_image : (advance s).image = s.image := rfl
@[simp] theorem advance_host : (advance s).host = s.host := rfl
@[simp] theorem advance_agenda : (advance s).agenda = s.agenda := rfl
@[simp] theorem advance_cfg : (advance s).cfg = s.cfg := rfl
@[simp] theorem advance_fresh : (advance s).fresh = s.fresh := rfl
@[simp] theorem advance_bufEpoch : (advance s).bufEpoch = s.bufEpoch := rfl
@[simp] theorem advance_raced : (advance s).raced = s.raced := rfl
@[simp] theorem advance_tainted : (advance s).tainted = s.tainted := rfl
@[simp] theorem advance_gridMatches : (advance s).gridMatches = s.gridMatches := rfl

/-! ### appendBit -/

@[simp] theorem appendBit_state (b : Bool) : (appendBit b s).state = s.state := rfl
@[simp] theorem appendBit_err (b : Bool) : (appendBit b s).err = s.err := rfl
@[simp] theorem appendBit_cfgok (b : Bool) : (appendBit b s).cfgok = s.cfgok := rfl
@[simp] theorem appendBit_rej (b : Bool) : (appendBit b s).rej = s.rej := rfl
@[simp] theorem appendBit_cvalid (b : Bool) : (appendBit b s).cvalid = s.cvalid := rfl
@[simp] theorem appendBit_policy (b : Bool) : (appendBit b s).policy = s.policy := rfl
@[simp] theorem appendBit_lastop (b : Bool) : (appendBit b s).lastop = s.lastop := rfl
@[simp] theorem appendBit_grid (b : Bool) : (appendBit b s).grid = s.grid := rfl
@[simp] theorem appendBit_msglen (b : Bool) : (appendBit b s).msglen = s.msglen := rfl
@[simp] theorem appendBit_msgaddr (b : Bool) : (appendBit b s).msgaddr = s.msgaddr := rfl
@[simp] theorem appendBit_mod (b : Bool) : (appendBit b s).mod = s.mod := rfl
@[simp] theorem appendBit_mult (b : Bool) : (appendBit b s).mult = s.mult := rfl
@[simp] theorem appendBit_inc (b : Bool) : (appendBit b s).inc = s.inc := rfl
@[simp] theorem appendBit_seed (b : Bool) : (appendBit b s).seed = s.seed := rfl
@[simp] theorem appendBit_lcgs (b : Bool) : (appendBit b s).lcgs = s.lcgs := rfl
@[simp] theorem appendBit_count (b : Bool) : (appendBit b s).count = s.count := rfl
@[simp] theorem appendBit_lastidx (b : Bool) : (appendBit b s).lastidx = s.lastidx := rfl
@[simp] theorem appendBit_coord (b : Bool) : (appendBit b s).coord = s.coord := rfl
@[simp] theorem appendBit_reslen (b : Bool) : (appendBit b s).reslen = s.reslen := rfl
@[simp] theorem appendBit_bitcnt (b : Bool) : (appendBit b s).bitcnt = s.bitcnt + 1 := rfl
@[simp] theorem appendBit_sr (b : Bool) : (appendBit b s).sr = (s.sr <<< 1) ||| (BitVec.ofBool b).setWidth 16 := rfl
@[simp] theorem appendBit_wl (b : Bool) : (appendBit b s).wl = s.wl := rfl
@[simp] theorem appendBit_hl (b : Bool) : (appendBit b s).hl = s.hl := rfl
@[simp] theorem appendBit_opk (b : Bool) : (appendBit b s).opk = s.opk := rfl
@[simp] theorem appendBit_msgbuf (b : Bool) : (appendBit b s).msgbuf = s.msgbuf := rfl
@[simp] theorem appendBit_image (b : Bool) : (appendBit b s).image = s.image := rfl
@[simp] theorem appendBit_host (b : Bool) : (appendBit b s).host = s.host := rfl
@[simp] theorem appendBit_agenda (b : Bool) : (appendBit b s).agenda = s.agenda := rfl
@[simp] theorem appendBit_cfg (b : Bool) : (appendBit b s).cfg = s.cfg := rfl
@[simp] theorem appendBit_fresh (b : Bool) : (appendBit b s).fresh = s.fresh := rfl
@[simp] theorem appendBit_bufEpoch (b : Bool) : (appendBit b s).bufEpoch = s.bufEpoch := rfl
@[simp] theorem appendBit_raced (b : Bool) : (appendBit b s).raced = s.raced := rfl
@[simp] theorem appendBit_tainted (b : Bool) : (appendBit b s).tainted = s.tainted := rfl
@[simp] theorem appendBit_gridMatches (b : Bool) : (appendBit b s).gridMatches = s.gridMatches := rfl

/-! ### bumpMsgaddr -/

@[simp] theorem bumpMsgaddr_state : (bumpMsgaddr s).state = s.state := rfl
@[simp] theorem bumpMsgaddr_err : (bumpMsgaddr s).err = s.err := rfl
@[simp] theorem bumpMsgaddr_cfgok : (bumpMsgaddr s).cfgok = s.cfgok := rfl
@[simp] theorem bumpMsgaddr_rej : (bumpMsgaddr s).rej = s.rej := rfl
@[simp] theorem bumpMsgaddr_cvalid : (bumpMsgaddr s).cvalid = s.cvalid := rfl
@[simp] theorem bumpMsgaddr_policy : (bumpMsgaddr s).policy = s.policy := rfl
@[simp] theorem bumpMsgaddr_lastop : (bumpMsgaddr s).lastop = s.lastop := rfl
@[simp] theorem bumpMsgaddr_grid : (bumpMsgaddr s).grid = s.grid := rfl
@[simp] theorem bumpMsgaddr_msglen : (bumpMsgaddr s).msglen = s.msglen := rfl
@[simp] theorem bumpMsgaddr_msgaddr : (bumpMsgaddr s).msgaddr = s.msgaddr + 1 := rfl
@[simp] theorem bumpMsgaddr_mod : (bumpMsgaddr s).mod = s.mod := rfl
@[simp] theorem bumpMsgaddr_mult : (bumpMsgaddr s).mult = s.mult := rfl
@[simp] theorem bumpMsgaddr_inc : (bumpMsgaddr s).inc = s.inc := rfl
@[simp] theorem bumpMsgaddr_seed : (bumpMsgaddr s).seed = s.seed := rfl
@[simp] theorem bumpMsgaddr_lcgs : (bumpMsgaddr s).lcgs = s.lcgs := rfl
@[simp] theorem bumpMsgaddr_count : (bumpMsgaddr s).count = s.count := rfl
@[simp] theorem bumpMsgaddr_lastidx : (bumpMsgaddr s).lastidx = s.lastidx := rfl
@[simp] theorem bumpMsgaddr_coord : (bumpMsgaddr s).coord = s.coord := rfl
@[simp] theorem bumpMsgaddr_reslen : (bumpMsgaddr s).reslen = s.reslen := rfl
@[simp] theorem bumpMsgaddr_bitcnt : (bumpMsgaddr s).bitcnt = s.bitcnt := rfl
@[simp] theorem bumpMsgaddr_sr : (bumpMsgaddr s).sr = s.sr := rfl
@[simp] theorem bumpMsgaddr_wl : (bumpMsgaddr s).wl = s.wl := rfl
@[simp] theorem bumpMsgaddr_hl : (bumpMsgaddr s).hl = s.hl := rfl
@[simp] theorem bumpMsgaddr_opk : (bumpMsgaddr s).opk = s.opk := rfl
@[simp] theorem bumpMsgaddr_msgbuf : (bumpMsgaddr s).msgbuf = s.msgbuf := rfl
@[simp] theorem bumpMsgaddr_image : (bumpMsgaddr s).image = s.image := rfl
@[simp] theorem bumpMsgaddr_host : (bumpMsgaddr s).host = s.host := rfl
@[simp] theorem bumpMsgaddr_agenda : (bumpMsgaddr s).agenda = s.agenda := rfl
@[simp] theorem bumpMsgaddr_cfg : (bumpMsgaddr s).cfg = s.cfg := rfl
@[simp] theorem bumpMsgaddr_fresh : (bumpMsgaddr s).fresh = s.fresh := rfl
@[simp] theorem bumpMsgaddr_bufEpoch : (bumpMsgaddr s).bufEpoch = s.bufEpoch := rfl
@[simp] theorem bumpMsgaddr_raced : (bumpMsgaddr s).raced = s.raced := rfl
@[simp] theorem bumpMsgaddr_tainted : (bumpMsgaddr s).tainted = s.tainted := rfl
@[simp] theorem bumpMsgaddr_gridMatches : (bumpMsgaddr s).gridMatches = s.gridMatches := rfl

/-! ### hostTakes -/

@[simp] theorem hostTakes_state (v : Word) : (hostTakes v s).state = s.state := rfl
@[simp] theorem hostTakes_err (v : Word) : (hostTakes v s).err = s.err := rfl
@[simp] theorem hostTakes_cfgok (v : Word) : (hostTakes v s).cfgok = s.cfgok := rfl
@[simp] theorem hostTakes_rej (v : Word) : (hostTakes v s).rej = s.rej := rfl
@[simp] theorem hostTakes_cvalid (v : Word) : (hostTakes v s).cvalid = s.cvalid := rfl
@[simp] theorem hostTakes_policy (v : Word) : (hostTakes v s).policy = s.policy := rfl
@[simp] theorem hostTakes_lastop (v : Word) : (hostTakes v s).lastop = s.lastop := rfl
@[simp] theorem hostTakes_grid (v : Word) : (hostTakes v s).grid = s.grid := rfl
@[simp] theorem hostTakes_msglen (v : Word) : (hostTakes v s).msglen = s.msglen := rfl
@[simp] theorem hostTakes_msgaddr (v : Word) : (hostTakes v s).msgaddr = s.msgaddr := rfl
@[simp] theorem hostTakes_mod (v : Word) : (hostTakes v s).mod = s.mod := rfl
@[simp] theorem hostTakes_mult (v : Word) : (hostTakes v s).mult = s.mult := rfl
@[simp] theorem hostTakes_inc (v : Word) : (hostTakes v s).inc = s.inc := rfl
@[simp] theorem hostTakes_seed (v : Word) : (hostTakes v s).seed = s.seed := rfl
@[simp] theorem hostTakes_lcgs (v : Word) : (hostTakes v s).lcgs = s.lcgs := rfl
@[simp] theorem hostTakes_count (v : Word) : (hostTakes v s).count = s.count := rfl
@[simp] theorem hostTakes_lastidx (v : Word) : (hostTakes v s).lastidx = s.lastidx := rfl
@[simp] theorem hostTakes_coord (v : Word) : (hostTakes v s).coord = s.coord := rfl
@[simp] theorem hostTakes_reslen (v : Word) : (hostTakes v s).reslen = s.reslen := rfl
@[simp] theorem hostTakes_bitcnt (v : Word) : (hostTakes v s).bitcnt = s.bitcnt := rfl
@[simp] theorem hostTakes_sr (v : Word) : (hostTakes v s).sr = s.sr := rfl
@[simp] theorem hostTakes_wl (v : Word) : (hostTakes v s).wl = s.wl := rfl
@[simp] theorem hostTakes_hl (v : Word) : (hostTakes v s).hl = s.hl := rfl
@[simp] theorem hostTakes_opk (v : Word) : (hostTakes v s).opk = s.opk := rfl
@[simp] theorem hostTakes_msgbuf (v : Word) : (hostTakes v s).msgbuf = s.msgbuf := rfl
@[simp] theorem hostTakes_image (v : Word) : (hostTakes v s).image = s.image := rfl
@[simp] theorem hostTakes_host (v : Word) : (hostTakes v s).host = { s.host with lastRead := v } := rfl
@[simp] theorem hostTakes_agenda (v : Word) : (hostTakes v s).agenda = s.agenda := rfl
@[simp] theorem hostTakes_cfg (v : Word) : (hostTakes v s).cfg = s.cfg := rfl
@[simp] theorem hostTakes_fresh (v : Word) : (hostTakes v s).fresh = s.fresh := rfl
@[simp] theorem hostTakes_bufEpoch (v : Word) : (hostTakes v s).bufEpoch = s.bufEpoch := rfl
@[simp] theorem hostTakes_raced (v : Word) : (hostTakes v s).raced = s.raced := rfl
@[simp] theorem hostTakes_tainted (v : Word) : (hostTakes v s).tainted = s.tainted := rfl
@[simp] theorem hostTakes_gridMatches (v : Word) : (hostTakes v s).gridMatches = s.gridMatches := rfl

end Sys2Proof.Laws
end

