-- ==== Sys2Proof/Laws/Ops.lean ====
section
/-! SUPPORT. For each shared operation, once, everything it can do. -/

namespace Sys2Proof.Laws

open Sys2Proof Sys2Proof.Machine

/-! ### Dispatch, checks, emission, access -/

theorem command_traversing {op : BitVec 4} {body : State → Result} {s : State} (h : s.state = .traversing) :
    command op body s = .next (reject s) := if_pos h

theorem command_accepted {op : BitVec 4} {body : State → Result} {s : State} (h : s.state ≠ .traversing) :
    command op body s = body (prologue op s) := if_neg h

theorem command_cases {op : BitVec 4} {body : State → Result} {s t : State} (h : command op body s = .next t) :
    (s.state = .traversing ∧ t = reject s) ∨ (s.state ≠ .traversing ∧ body (prologue op s) = .next t) := by
  by_cases hs : s.state = .traversing
  · rw [command_traversing hs] at h
    exact .inl ⟨hs, by cases h; rfl⟩
  · exact .inr ⟨hs, by rwa [command_accepted hs] at h⟩

theorem configured_yes {body : State → Result} {s : State} (h : s.cfgok = true) : configured body s = body s := if_pos h

theorem configured_no {body : State → Result} {s : State} (h : s.cfgok = false) :
    configured body s = .next (failWith .notConfigured s) := by
  simp [configured, h, raiseFail]

theorem configured_cases {body : State → Result} {s t : State} (h : configured body s = .next t) :
    (s.cfgok = true ∧ body s = .next t) ∨ (s.cfgok = false ∧ t = failWith .notConfigured s) := by
  cases hc : s.cfgok
  · rw [configured_no hc] at h
    exact .inr ⟨rfl, by cases h; rfl⟩
  · exact .inl ⟨rfl, by rwa [configured_yes hc] at h⟩

theorem emit_next {k : Nat → Nat → State → Result} {s : State} (h : s.count.toNat < s.mod.toNat) :
    emit k s = k (coordX s) (coordY s) (advance s) := if_pos h

theorem emit_cases {k : Nat → Nat → State → Result} {s t : State} (h : emit k s = .next t) :
    s.count.toNat < s.mod.toNat ∧ k (coordX s) (coordY s) (advance s) = .next t := by
  by_cases hs : s.count.toNat < s.mod.toNat
  · exact ⟨hs, by rwa [emit_next hs] at h⟩
  · simp [emit, hs] at h

theorem guarded_cases {f : State → State} {s t : State} (h : guarded f s = .next t) :
    (s.state = .traversing ∧ t = reject s) ∨ (s.state ≠ .traversing ∧ t = f s) := by
  unfold guarded at h
  split at h
  · next hs => cases h; exact .inl ⟨hs, rfl⟩
  · next hs => cases h; exact .inr ⟨hs, rfl⟩

theorem accessOffset_base (c : Config) : accessOffset c c.base 32 = .ok 0 := by
  simp [accessOffset, Config.base]

theorem accessOffset_ok {c : Config} {addr bits off : Nat} (h : accessOffset c addr bits = .ok off) :
    bits = 32 ∧ c.base ≤ addr ∧ off = addr - c.base ∧ off ≤ 0xFC ∧ off % 4 = 0 := by
  unfold accessOffset at h
  split at h
  · cases h
  · split at h
    · cases h
    · split at h
      · cases h
      · cases h
        refine ⟨by omega, by omega, rfl, by omega, by omega⟩

/-! ### The deserializer -/

/-- commit writes one byte of MSGBUF or nothing. -/
theorem commit_eq (s : State) : ∃ m, commit s = { s with msgbuf := m } := by
  unfold commit
  split
  · exact ⟨_, rfl⟩
  · exact ⟨s.msgbuf, rfl⟩

/-- Which byte a commit writes, and that it writes no other (42_framer R167). -/
theorem bufByte_commit (s : State) (a : Nat) :
    bufByte (commit s) a =
      if s.bitcnt.toNat % 8 = 0 ∧ s.bitcnt.toNat / 8 - 1 < s.cfg.msgbufBytes ∧ a = s.bitcnt.toNat / 8 - 1 then
        s.sr.extractLsb' 0 8
      else bufByte s a := by
  unfold commit
  split
  · next h => simp [bufByte_memWrite, h.1, h.2]
  · next h => rw [if_neg fun hc => h ⟨hc.1, hc.2.1⟩]

theorem commit_bufferOk {s : State} (h : BufferOk s) : BufferOk (commit s) := by
  unfold commit
  split
  · next hc => exact memWrite_bufferOk _ h hc.2
  · exact h

theorem finishMatch_eq (s : State) : ∃ st e n, (st = .done ∧ e = s.err ∨ st = .failed ∧ e = .msgOverflow) ∧
    finishMatch s = { s with state := st, err := e, reslen := n } := by
  unfold finishMatch
  dsimp only
  split
  · exact ⟨.failed, .msgOverflow, _, .inr ⟨rfl, rfl⟩, rfl⟩
  · exact ⟨.done, s.err, _, .inl ⟨rfl, rfl⟩, rfl⟩

/-- What scanning a pixel's channels can write. -/
theorem scanChannels_eq (p : Pixel) (js : List Nat) (s : State) : ∃ st e n b r m,
    scanChannels p js s = { s with state := st, err := e, reslen := n, bitcnt := b, sr := r, msgbuf := m } := by
  induction js generalizing s with
  | nil =>
    simp only [scanChannels, endExtract]
    split
    · exact ⟨_, _, _, _, _, _, rfl⟩
    · exact ⟨s.state, s.err, s.reslen, s.bitcnt, s.sr, s.msgbuf, rfl⟩
  | cons j js ih =>
    obtain ⟨m, hm⟩ := commit_eq (appendBit (lsb (channel j p)) s)
    simp only [scanChannels]
    split
    · obtain ⟨st, e, n, -, hf⟩ := finishMatch_eq (commit (appendBit (lsb (channel j p)) s))
      rw [hf, hm]
      exact ⟨_, _, _, _, _, _, rfl⟩
    · obtain ⟨st, e, n, b, r, m', hs⟩ := ih (commit (appendBit (lsb (channel j p)) s))
      rw [hs, hm]
      exact ⟨_, _, _, _, _, _, rfl⟩

/-! ### The pixel port and the embed step -/

theorem pixelRead_eq (x y : Nat) (s : State) : ∃ n, (pixelRead x y s).2 = { s with fresh := n } := by
  unfold pixelRead drawPixel portRead
  split
  · split
    · exact ⟨_, rfl⟩
    · exact ⟨s.fresh, rfl⟩
  · exact ⟨_, rfl⟩

/-- Where the image matches the grid and the host has not interfered, a PixelRead is a plain read. -/
theorem pixelRead_undisturbed {s : State} (x y : Nat) (hg : s.gridMatches = true) (hr : s.raced = []) :
    pixelRead x y s = (s.image.pixel (linearIndex x y s), s) := by
  simp [pixelRead, hg, hr]

theorem pixelWrite_eq (x y : Nat) (p : Pixel) (s : State) :
    ∃ m n, pixelWrite x y p s = { s with image := m, fresh := n } := by
  unfold pixelWrite portWrite
  split
  · exact ⟨_, s.fresh, rfl⟩
  · exact ⟨_, _, rfl⟩

theorem insertChannel_eq (j : Nat) (sp : State × Pixel) :
    (insertChannel j sp).1 =
      { sp.1 with bitcnt := if sp.1.bitcnt.toNat < frameLength sp.1 then sp.1.bitcnt + 1 else sp.1.bitcnt } := by
  unfold insertChannel
  split <;> rfl

theorem endEmbed_eq (s : State) : ∃ st e, endEmbed s = { s with state := st, err := e } := by
  unfold endEmbed
  split
  · exact ⟨.done, s.err, rfl⟩
  · split
    · exact ⟨_, _, rfl⟩
    · exact ⟨s.state, s.err, rfl⟩

/-! ### Races and reset -/

theorem settlePixels_eq (ks : List Nat) (s : State) :
    ∃ m, settlePixels ks s = { s with image := m, fresh := s.fresh + ks.length } := by
  induction ks generalizing s with
  | nil => exact ⟨s.image, rfl⟩
  | cons k ks ih =>
    obtain ⟨m, hm⟩ := ih { s with image := s.image.setPixel k (Config.freePixel s.fresh), fresh := s.fresh + 1 }
    refine ⟨m, ?_⟩
    rw [settlePixels, hm]
    simp only [List.length_cons]
    congr 1
    omega

theorem settlePixels_size (ks : List Nat) (s : State) :
    (settlePixels ks s).image.width = s.image.width ∧ (settlePixels ks s).image.height = s.image.height := by
  induction ks generalizing s with
  | nil => exact ⟨rfl, rfl⟩
  | cons k ks ih => exact ih _

/-- A pixel that is not listed keeps its value. -/
theorem settlePixels_other (ks : List Nat) (s : State) {l : Nat} (h : l ∉ ks) :
    (settlePixels ks s).image.pixel l = s.image.pixel l := by
  induction ks generalizing s with
  | nil => rfl
  | cons k ks ih =>
    rw [List.mem_cons, not_or] at h
    exact (ih _ h.2).trans (pixel_setPixel_other _ _ h.1)

theorem settlePixels_imageOk (ks : List Nat) {s : State} (h : ImageOk s)
    (hk : ∀ k ∈ ks, k < s.image.width * s.image.height) : ImageOk (settlePixels ks s) := by
  induction ks generalizing s with
  | nil => exact h
  | cons k ks ih =>
    refine ih ⟨setPixel_wf k _ h.1, setPixel_bounded _ h.2 (hk k List.mem_cons_self)⟩ fun l hl => ?_
    exact hk l (List.mem_cons_of_mem _ hl)

theorem settleRaces_traversing {s : State} (h : s.state = .traversing) : settleRaces s = s := if_pos h

/-- Without a race nothing is settled. -/
theorem settleRaces_undisturbed {s : State} (hr : s.raced = []) (ht : s.tainted = false) : settleRaces s = s := by
  unfold settleRaces
  split
  · rfl
  · simp only [hr, settlePixels, settleResult, ht]
    cases s
    simp_all

/-- What settling can write. -/
theorem settleResult_eq (s : State) : ∃ st e n m b f,
    settleResult s =
      { s with state := st, err := e, reslen := n, msgbuf := m, bufEpoch := b, fresh := f, tainted := false } := by
  unfold settleResult
  split
  · exact ⟨_, _, _, _, _, _, rfl⟩
  · next h =>
    refine ⟨s.state, s.err, s.reslen, s.msgbuf, s.bufEpoch, s.fresh, ?_⟩
    cases s
    simp_all

/-- Whatever a raced extract's outcome, it is an ending and its ERR fits it. -/
theorem outcome_cases (o : Fin 3) :
    (outcomeState o = .done ∧ outcomeErr o = .none) ∨ (outcomeState o = .exhausted ∧ outcomeErr o = .none) ∨
      (outcomeState o = .failed ∧ outcomeErr o = .msgOverflow) := by
  revert o
  decide

end Sys2Proof.Laws
end

