-- ==== Sys2Proof/Laws/PerInstr.lean ====
section
/-! SUPPORT. Statements about every command as syntax, one lemma per command. -/

namespace Sys2Proof.Laws.OpcodeField

open Sys2Proof

/-- A well-formed command's word has its opcode in bits 31:28 and 0 in the reserved field 27:21 (30_encoding R91, R96, R98). -/
def Statement (i : Instr) : Prop :=
  i.wellFormed = true → (encode i).extractLsb' 28 4 = i.opcode ∧ (encode i).extractLsb' 21 7 = 0

theorem nop : Statement .nop := fun _ => by decide
theorem setup : Statement .setup := fun _ => by decide

/-- ADDCP's word: the opcode in place, OR the code point (30_encoding R96). -/
theorem addcp_word (cp : Nat) : encode (.addcp cp) = 0x20000000#32 ||| BitVec.ofNat 32 cp := by
  have op : ((2#4).setWidth 32 : Word) <<< 28 = 0x20000000#32 := by decide
  simp only [encode, Instr.opcode, Instr.operandBits, toWord]
  rw [← op]
  rfl

theorem addcp (cp : Nat) : Statement (.addcp cp) := by
  intro h
  have hcp : cp ≤ 0x1FFFFF := of_decide_eq_true h
  have high : ∀ j, 21 ≤ j → (BitVec.ofNat 32 cp).getLsbD j = false := fun j hj => by
    have hj : 2 ^ 21 ≤ 2 ^ j := Nat.pow_le_pow_right (by decide) hj
    rw [BitVec.getLsbD_ofNat, Nat.testBit_lt_two_pow (by omega), Bool.and_false]
  rw [addcp_word]
  constructor
  · ext j hj
    rw [BitVec.getElem_extractLsb', BitVec.getLsbD_or, high (28 + j) (by omega), Bool.or_false]
    exact (by decide : ∀ j, (h : j < 4) → (0x20000000#32).getLsbD (28 + j) = (2#4)[j]) j hj
  · ext j hj
    rw [BitVec.getElem_extractLsb', BitVec.getLsbD_or, high (21 + j) (by omega), Bool.or_false]
    exact (by decide : ∀ j, (h : j < 7) → (0x20000000#32).getLsbD (21 + j) = (0#7)[j]) j hj

theorem embed (p : Policy) : Statement (.embed p) := fun _ => by cases p <;> decide
theorem extract (p : Policy) : Statement (.extract p) := fun _ => by cases p <;> decide
theorem genStart (p : Policy) : Statement (.genStart p) := fun _ => by cases p <;> decide
theorem genNext : Statement .genNext := fun _ => by decide

end Sys2Proof.Laws.OpcodeField
end

