-- ==== Sys2Proof/Laws/Step.lean ====
section
/-! SUPPORT. What one step is: the agenda's first turn or the default turn; what one register write is. -/

namespace Sys2Proof.Laws

open Sys2Proof Sys2Proof.Machine

theorem step_nil {s : State} (h : s.agenda = []) : step s = defaultTurn s := by
  unfold step
  rw [h]

theorem step_cons {s : State} {t : Turn} {rest : List Turn} (h : s.agenda = t :: rest) :
    step s = takeTurn t { s with agenda := rest } := by
  unfold step
  rw [h]

/-- A step is the default turn on an empty agenda, or the agenda's first turn on the rest. -/
theorem step_cases {s t : State} (h : step s = .next t) :
    (s.agenda = [] ∧ defaultTurn s = .next t) ∨
      ∃ u rest, s.agenda = u :: rest ∧ takeTurn u { s with agenda := rest } = .next t := by
  cases ha : s.agenda with
  | nil => exact .inl ⟨rfl, by rwa [step_nil ha] at h⟩
  | cons u rest => exact .inr ⟨u, rest, rfl, by rwa [step_cons ha] at h⟩

theorem defaultTurn_traversing {s : State} (h : s.state = .traversing) : defaultTurn s = engineStep s := if_pos h

theorem defaultTurn_host {s : State} (h : s.state ≠ .traversing) : defaultTurn s = hostTurn s := if_neg h

theorem engineStep_embed {s : State} (h : s.opk = .embed) :
    engineStep s = emit (fun x y s => .next (settleRaces (embedPixel x y s))) s := by
  unfold engineStep
  rw [h]

theorem engineStep_extract {s : State} (h : s.opk = .extract) :
    engineStep s = emit (fun x y s => .next (settleRaces (extractPixel x y s))) s := by
  unfold engineStep
  rw [h]

/-- A host write that has a next state is a CMD dispatch, one of the four guarded writes, or ignored. -/
theorem regWrite_cases {off : Nat} {v : Word} {s t : State} (h : regWrite off v s = .next t) :
    (off = 0 ∧ cmdWrite v s = .next t) ∨ (s.state = .traversing ∧ t = reject s) ∨
      (s.state ≠ .traversing ∧
        (t = { s with grid := v } ∨ t = { s with msglen := v } ∨ t = { s with msgaddr := v } ∨ t = storeMsgdata v s)) ∨
      t = s := by
  unfold regWrite at h
  split at h
  · next hr =>
    refine .inl ⟨?_, h⟩
    unfold Reg.ofOffset at hr
    split at hr <;> first | rfl | cases hr
  · rcases guarded_cases h with ⟨hs, rfl⟩ | ⟨hs, rfl⟩
    · exact .inr (.inl ⟨hs, rfl⟩)
    · exact .inr (.inr (.inl ⟨hs, .inl rfl⟩))
  · rcases guarded_cases h with ⟨hs, rfl⟩ | ⟨hs, rfl⟩
    · exact .inr (.inl ⟨hs, rfl⟩)
    · exact .inr (.inr (.inl ⟨hs, .inr (.inl rfl)⟩))
  · rcases guarded_cases h with ⟨hs, rfl⟩ | ⟨hs, rfl⟩
    · exact .inr (.inl ⟨hs, rfl⟩)
    · exact .inr (.inr (.inl ⟨hs, .inr (.inr (.inl rfl))⟩))
  · rcases guarded_cases h with ⟨hs, rfl⟩ | ⟨hs, rfl⟩
    · exact .inr (.inl ⟨hs, rfl⟩)
    · exact .inr (.inr (.inl ⟨hs, .inr (.inr (.inr rfl))⟩))
  · cases h
    exact .inr (.inr (.inr rfl))

/-- A CMD write runs a decoded command or is rejected. -/
theorem cmdWrite_cases {w : Word} {s t : State} (h : cmdWrite w s = .next t) :
    (∃ i, decode w = .ok i ∧ exec i s = .next t) ∨ ((∃ e, decode w = .error e) ∧ t = reject s) := by
  unfold cmdWrite at h
  cases hd : decode w with
  | ok i => rw [hd] at h; exact .inl ⟨i, rfl, h⟩
  | error e => rw [hd] at h; cases h; exact .inr ⟨⟨e, rfl⟩, rfl⟩

/-- Every command of a traversing block is rejected, whatever it is. -/
theorem exec_traversing {i : Instr} {s : State} (h : s.state = .traversing) : exec i s = .next (reject s) := by
  cases i <;> exact command_traversing h

end Sys2Proof.Laws
end

