-- ==== Sys2Proof/Tests/Slice0.lean ====
section
/-! SUPPORT. The model's own tests: expected values are those of spec/95_test_vectors.md unless a comment says otherwise.
Then, for every statement with hypotheses, states that meet them. -/

namespace Sys2Proof.Tests

open Sys2Proof Sys2Proof.Machine

/-! ### Small states -/

/-- The next state of a result; the reset state where it has none. -/
def okState : Result → State
  | .next s => s
  | _ => State.reset

/-- Whether a result is a next state. -/
def isNext : Result → Bool
  | .next _ => true
  | _ => false

theorem exists_next {r : Result} (h : isNext r = true) : ∃ t, r = .next t := by
  cases r with
  | next t => exact ⟨t, rfl⟩
  | fault _ => cases h
  | refused _ => cases h

theorem exists_next_with {r : Result} {P : State → Prop} (h : isNext r = true) (hp : P (okState r)) : ∃ t, r = .next t ∧ P t := by
  cases r with
  | next t => exact ⟨t, rfl, hp⟩
  | fault _ => cases h
  | refused _ => cases h

/-- A `w` by `h` image of one colour. -/
def plainImage (w h : Nat) (p : Pixel) : Image :=
  Image.fill { width := w, height := h, epoch := 0, cells := [] } 0 (List.replicate (w * h) p)

/-- After `GRIDSET w, h` and `SETUP` with an image attached. -/
def onGrid (w h : Nat) (m : Image) : State := okState (exec .setup { State.reset with grid := packGrid w h, image := m })

/-- P2's start: the 4 × 4 black image. -/
def grid44 : State := onGrid 4 4 (plainImage 4 4 0)

/-- P2 up to LOADMSG: password "key", message [0x41]. -/
def keyed : State := { grid44 with seed := 9, msgbuf := [(0, 0x41)], msglen := 1, msgaddr := 1 }

/-- P2's embed, started. -/
def embedding : State := okState (exec (.embed .lcg) keyed)

/-- An extract started on the 4 × 4 black image under "key". -/
def extracting : State := okState (exec (.extract .lcg) keyed)

/-- An embed of the empty message on a black 3 × 2 image, started: 16 bits for 18. -/
def smallIdle : State := onGrid 3 2 (plainImage 3 2 0)

def smallEmbed : State := okState (exec (.embed .raster) smallIdle)

def smallExtract : State := okState (exec (.extract .raster) smallIdle)

/-- P3's refused embed. -/
def refused22 : State := okState (exec (.embed .raster) { onGrid 2 2 (plainImage 2 2 0x102030) with msglen := 1 })

/-! ### Well-formedness and encoding (30_encoding) -/

theorem test_code_point_too_wide : (Instr.addcp 0x200000).wellFormed = false := by decide
theorem test_code_point_widest : (Instr.addcp 0x1FFFFF).wellFormed = true := by decide
theorem test_line_offset_misaligned : HostLine.wellFormed [] (.rd 0x06) = false := by decide
theorem test_line_offset_outside : HostLine.wellFormed [] (.wr 0x100 0) = false := by decide
theorem test_line_checked_offset_outside : HostLine.wellFormed [] (.rdEq 0x100 0) = false := by decide
theorem test_line_command_ill_formed : HostLine.wellFormed [] (.cmd (.addcp 0x200000)) = false := by decide
theorem test_line_label_missing : HostLine.wellFormed [.label 1] (.ifGoto stillTraversing 2) = false := by decide
theorem test_line_field_reversed : HostLine.wellFormed [.label 1] (.ifGoto { hi := 0, lo := 2, val := 1 } 1) = false := by decide
theorem test_line_field_too_high : HostLine.wellFormed [.label 1] (.ifGoto { hi := 32, lo := 0, val := 1 } 1) = false := by decide
theorem test_line_password_too_wide : HostLine.wellFormed [] (.password [0x41, 0x200000]) = false := by decide
theorem test_line_grid_too_wide : HostLine.wellFormed [] (.gridSet 65536 1) = false := by decide
theorem test_line_grid_too_high : HostLine.wellFormed [] (.gridSet 1 65536) = false := by decide

/-! Words written out from the encodings of 30_encoding R91 to R96: op, reserved, operand. -/

theorem test_decode_nop : decode 0b0000_0000000_000000000000000000000 = .ok .nop := by decide
theorem test_decode_setup : decode 0b0001_0000000_000000000000000000000 = .ok .setup := by decide
theorem test_decode_addcp : decode 0b0010_0000000_000000000000001101011 = .ok (.addcp 107) := by decide
theorem test_decode_embed : decode 0b0011_0000000_000000000000000000001 = .ok (.embed .lcg) := by decide
theorem test_decode_extract : decode 0b0100_0000000_000000000000000000001 = .ok (.extract .lcg) := by decide
theorem test_decode_gen_start : decode 0b0101_0000000_000000000000000000000 = .ok (.genStart .raster) := by decide
theorem test_decode_gen_next : decode 0b0110_0000000_000000000000000000000 = .ok .genNext := by decide
theorem test_decode_ignored_bits : decode 0x0FFFFFFF = .ok .nop ∧ decode 0x2FE0006B = .ok (.addcp 107) := by decide
theorem test_decode_reserved : decode 0x70000000 = .error (.reservedOpcode 7) ∧ decode 0xF0000000 = .error (.reservedOpcode 15) := by
  decide
theorem test_encode_addcp : encode (.addcp 0x1FFFFF) = 0x201FFFFF := by decide
theorem test_encode_policies :
    encode (.embed .lcg) = 0x30000001 ∧ encode (.extract .raster) = 0x40000000 ∧ encode (.genStart .lcg) = 0x50000001 := by decide
theorem test_table_word_runs : statusWord (okState (step (State.reset.withFetchWord 32 0x10000000))) = 0x00010034 := by decide

/-! Assembler text and host programs (30_encoding R100 to R102). -/

theorem test_assemble_character : assembleLine "ADDCP 'k' ; first".toList = some 0x2000006B := by decide
theorem test_assemble_hexadecimal : assembleLine "ADDCP 0x1FFFFF".toList = some 0x201FFFFF := by decide
theorem test_assemble_policy : assembleLine "  EMBED.LCG".toList = some 0x30000001 := by decide
theorem test_assemble_bare_embed : assembleLine "EMBED".toList = none := by decide
theorem test_assemble_code_point_too_wide : assembleLine "ADDCP 0x200000".toList = none := by decide
theorem test_expand_password :
    assemble [.password [107, 101, 121]] = [.wr 0 0x2000006B, .wr 0 0x20000065, .wr 0 0x20000079] := by decide
theorem test_expand_grid : assemble [.gridSet 4 2] = [.wr 8 0x00020004] := by decide
theorem test_expand_load : assemble [.loadMsg [0x41]] = [.wr 0x10 0, .wr 0x14 0x41, .wr 0x0C 1] := by decide
theorem test_expand_loop :
    assemble [.cmd .setup, .label 1, .cmd .genNext, .rd 4, .ifGoto { hi := 11, lo := 11, val := 1 } 1] =
      [.wr 0 0x10000000, .wr 0 0x60000000, .rd 4, .ifGoto { hi := 11, lo := 11, val := 1 } 1] := by decide

/-! ### Commands -/

theorem test_nop_clears_failure : statusWord (okState (exec .nop refused22)) = 0x00000100 := by decide
theorem test_nop_rejected : statusWord (okState (exec .nop embedding)) = 0x00031301 := by decide
theorem test_setup_44 : statusWord grid44 = 0x00010100 ∧ grid44.mod = 16 ∧ grid44.mult = 5 ∧ grid44.inc = 9 := by decide
theorem test_setup_zero_height :
    statusWord (onGrid 4 0 (plainImage 4 4 0)) = 0x00010034 ∧ (onGrid 4 0 (plainImage 4 4 0)).mod = 0 := by decide
theorem test_addcp_k : (okState (exec (.addcp 107) grid44)).seed = 11 := by decide
theorem test_addcp_largest : (okState (exec (.addcp 0x1FFFFF) { grid44 with seed := 11 })).seed = 10 := by decide
theorem test_embed_starts : statusWord embedding = 0x00031101 ∧ embedding.lcgs = 9 := by decide
/-- 70_reset R267: RESLEN reads 0 while TRAVERSING; 43_codec R192: EMBED does not write it, so it reads back after (log 25). -/
theorem test_embed_hides_reslen :
    let s := okState (exec (.embed .lcg) { keyed with reslen := 4 })
    s.state = .traversing ∧ (regRead 0x38 s).host.lastRead = 0 ∧ (regRead 0x38 { s with state := .done }).host.lastRead = 4 := by
  decide
theorem test_embed_refused : statusWord refused22 = 0x00030114 := by decide
theorem test_extract_starts : statusWord (okState (exec (.extract .raster) grid44)) = 0x00040101 := by decide
theorem test_extract_unconfigured : statusWord (okState (exec (.extract .raster) State.reset)) = 0x00040044 := by decide
theorem test_gen_start : statusWord (okState (exec (.genStart .lcg) keyed)) = 0x00051100 ∧
    (okState (exec (.genStart .lcg) keyed)).lcgs = 9 := by decide
theorem test_gen_start_unconfigured : statusWord (okState (exec (.genStart .lcg) State.reset)) = 0x00050044 := by decide

/-- X-GEN3: GEN_NEXT after the embed of P2. -/
theorem test_gen_next :
    let t := okState (exec .genNext { keyed with policy := .lcg, lcgs := 1, count := 8, lastidx := 8, cvalid := true })
    statusWord t = 0x00061900 ∧ t.lastidx = 1 ∧ t.coord = 0x00000001 ∧ t.count = 9 ∧ t.lcgs = 14 := by decide
theorem test_gen_next_exhausted :
    statusWord (okState (exec .genNext { keyed with policy := .lcg, count := 16, cvalid := true })) = 0x00061500 := by decide

/-! ### Parameters (X-GEN1) -/

theorem test_increments : [1, 2, 3, 6, 7, 10, 11, 18, 105].map incr = [1, 1, 1, 5, 3, 7, 5, 11, 53] := by decide
theorem test_multipliers : [1, 4, 6, 9, 12, 16, 20, 25, 105].map mult = [2, 5, 7, 4, 13, 5, 21, 6, 106] := by decide
theorem test_spec_example_multiplier : mult 2073600 = 61 := by decide

/-! ### The engine (X-EMB1, X-FRM4) -/

theorem test_embed_step :
    let t := okState (step embedding)
    statusWord t = 0x00031901 ∧ t.lastidx = 9 ∧ t.coord = 0x00020001 ∧ t.bitcnt = 3 ∧ t.lcgs = 6 ∧
      t.image.pixel 9 = 0x000100 ∧ t.image.pixel 8 = 0 := by decide

/-- The sixth step of X-EMB2: only R is written, with the sentinel's last 0, and the embed is done. -/
theorem test_embed_last_step :
    let s := { smallEmbed with count := 5, bitcnt := 15, lcgs := 5, cvalid := true, image := plainImage 3 2 0x010101 }
    let t := okState (step s)
    t.state = .done ∧ t.bitcnt = 16 ∧ t.image.pixel 5 = 0x000101 := by decide

/-- Row 8 of X-FRM4: the byte 0xFE is committed, and the sentinel found. -/
theorem test_extract_match :
    let s := { extracting with image := plainImage 4 4 0x010100, count := 7, bitcnt := 21, sr := 0x3FFF, lcgs := 8 }
    let t := okState (step s)
    statusWord t = 0x00041902 ∧ t.sr = 0xFFFE ∧ t.reslen = 1 ∧ bufByte t 2 = 0xFE := by decide

/-- X-EXT2: 1 × 1, one step, not found. -/
theorem test_extract_not_found :
    let t := okState (step (okState (exec (.extract .raster) (onGrid 1 1 (plainImage 1 1 0)))))
    statusWord t = 0x00040D03 ∧ t.bitcnt = 3 := by decide

/-- P5's last extract step: the sentinel ends with R of pixel 5, so G and B are not appended. -/
theorem test_extract_stops_inside_pixel :
    let t := okState (step { smallExtract with count := 5, bitcnt := 15, sr := 0x7FFF, lcgs := 5, image := plainImage 3 2 0x000101 })
    t.state = .done ∧ t.bitcnt = 16 ∧ t.count = 6 ∧ t.sr = 0xFFFE ∧ t.reslen = 0 := by decide

/-- X-OVF: the match of the "A" extract with a buffer of two bytes. -/
theorem test_extract_overflow :
    let s := { extracting with
      cfg := { Config.vectors with bufLast := 1 }, policy := .lcg, cvalid := true, count := 16, bitcnt := 48, sr := 0xFFFE }
    statusWord (finishMatch s) = 0x00041D64 ∧ (finishMatch s).reslen = 4 := by decide

/-! ### Registers, memory, reset -/

/-- The codes of 10_state R25 and R26. -/
theorem test_status_codes :
    [EngineState.idle, .traversing, .done, .exhausted, .failed].map stateCode = [0, 1, 2, 3, 4] ∧
      [ErrCode.none, .capacityExceeded, .exhausted, .invalidGrid, .notConfigured, .badLength, .msgOverflow].map errCode =
        [0, 1, 2, 3, 4, 5, 6] := by decide

/-- X-EXC: BAD_LENGTH on 2 × 2. -/
theorem test_bad_length :
    statusWord (okState (exec (.embed .raster) { onGrid 2 2 (plainImage 2 2 0) with msglen := 65 })) = 0x00030154 := by decide

/-- X-MEM1, with the buffer of four bytes. -/
theorem test_msgdata_write :
    let s := { State.reset with cfg := { Config.vectors with bufLast := 3 }, msgaddr := 3 }
    let t := okState (regWrite 0x14 0x1AB s)
    t.msgaddr = 4 ∧ t.msgbuf = [(3, 0xAB)] ∧ (okState (regWrite 0x14 0xCD t)).msgbuf = [(3, 0xAB)] := by decide
theorem test_msgdata_read_wraps :
    let t := regRead 0x14 { State.reset with msgaddr := 0xFFFFFFFF }
    t.msgaddr = 0 ∧ t.host.lastRead = 0 := by decide
theorem test_wide_views :
    let s := { grid44 with mod := 4294836225, msglen := 0xFFFFFFFF }
    [0x3C, 0x40, 0x44, 0x48].map (fun off => (regRead off s).host.lastRead) = [0xFFFA0003, 2, 8, 8] := by decide
theorem test_reset_reads : [0x04, 0x3C, 0x44, 0x54].map (fun off => (regRead off State.reset).host.lastRead) = [0, 0, 0x10, 0] := by
  decide

/-- X-RST2: the block after a reset in a traversal; the image keeps what it holds. -/
theorem test_reset_abandons :
    let t := okState (step { smallEmbed with image := plainImage 3 2 0x010001, agenda := [.reset] })
    statusWord t = 0 ∧ t.mod = 0 ∧ t.image = plainImage 3 2 0x010001 := by decide

theorem test_access_refused :
    isNext (busRead 0x02 32 State.reset) = false ∧ isNext (busRead 0x04 16 State.reset) = false ∧
      isNext (busWrite 0x100 32 0 State.reset) = false := by decide

/-- Only a state outside the invariants raises the model's one fault. -/
theorem test_emit_past_end : isNext (engineStep { smallExtract with count := 5 }) = true ∧
    isNext (engineStep { smallExtract with count := 6 }) = false := by decide

/-! ### Witnesses: states and operands that meet the hypotheses of each statement, one for each of its clauses -/

/-! Encoding and the step. -/

theorem witness_DecodeInvertsEncode : (Instr.addcp cpMax).wellFormed = true ∧ Instr.genNext.wellFormed = true := by decide

theorem witness_EncodeGivesBackUsedBits : decode 0x2FE0006B = .ok (.addcp 107) ∧ decode 0x3FFFFFFE = .ok (.embed .raster) := by
  decide

theorem witness_OpcodeAloneSelectsCommand :
    decode 0x6FFFFFFF = .ok .genNext ∧ (0x6FFFFFFF#32 >>> 28).toNat < 7 ∧ ¬(0x70000000#32 >>> 28).toNat < 7 := by decide

/-- Two words that differ, and only in bits their command ignores. -/
abbrev DifferWhereIgnored (w v : Word) : Prop :=
  w ≠ v ∧ w.extractLsb' 28 4 = v.extractLsb' 28 4 ∧
    (w.extractLsb' 28 4 = 2#4 → w.extractLsb' 0 21 = v.extractLsb' 0 21) ∧
    (w.extractLsb' 28 4 = 3#4 ∨ w.extractLsb' 28 4 = 4#4 ∨ w.extractLsb' 28 4 = 5#4 → w.getLsbD 0 = v.getLsbD 0)

/-- ADDCP, then two commands with P, then a command and a reserved opcode that read op only. -/
theorem witness_IgnoredBitsHaveNoEffect :
    DifferWhereIgnored 0x2FE0006B 0x2000006B ∧ DifferWhereIgnored 0x3FFFFFFF 0x30000001 ∧
      DifferWhereIgnored 0x5FFFFFFE 0x50000000 ∧ DifferWhereIgnored 0x0FFFFFFF 0 ∧ DifferWhereIgnored 0x7FFFFFFF 0x70000000 := by
  decide

theorem witness_StepRunsDecodedCommand :
    let s := { grid44 with agenda := [.busWrite grid44.cfg.base 32 0x2000006B] }
    s.agenda = .busWrite s.cfg.base 32 0x2000006B :: [] ∧ decode 0x2000006B = .ok (.addcp 107) ∧
      decodeTableWord 32 0x2000006B = some (.addcp 107) := by decide

/-- Both sides of both conditions: opcodes 6 and 7, TRAVERSING and not. -/
theorem witness_CmdWriteIsDispatched :
    (embedding.state = .traversing ∧ ¬7 ≤ ((0x60000000#32).extractLsb' 28 4).toNat) ∧
      (keyed.state ≠ .traversing ∧ 7 ≤ ((0x70000000#32).extractLsb' 28 4).toNat) ∧
      ¬(keyed.state = .traversing ∨ 7 ≤ ((0x60000000#32).extractLsb' 28 4).toNat) := by decide

theorem witness_AcceptedCommandRunsPrologue :
    State.reset.state ≠ .traversing ∧ (∃ t, exec .nop State.reset = .next t ∧ t.err = .none) ∧
      ∃ t, exec .genNext State.reset = .next t ∧ t.err ≠ .none :=
  ⟨by decide, ⟨_, rfl, rfl⟩, ⟨_, rfl, by decide⟩⟩

/-- A rejected command, then each outcome of an accepted one, the limits met exactly and passed by one byte. -/
theorem witness_CommandChecksHavePriority :
    (embedding.state = .traversing ∧ ∃ t, exec .nop embedding = .next t) ∧
      (onGrid 4 0 (plainImage 4 4 0)).err = .invalidGrid ∧
      (∃ t, exec .genNext State.reset = .next t ∧ t.err = .notConfigured) ∧
      (∃ t, exec (.embed .raster) { grid44 with msglen := 65 } = .next t ∧ t.err = .badLength) ∧
      (∃ t, exec (.embed .raster) { grid44 with msglen := 64 } = .next t ∧ t.err = .capacityExceeded) ∧
      (∃ t, exec (.embed .raster) { grid44 with msglen := 5 } = .next t ∧ t.err = .capacityExceeded) ∧
      ∃ t, exec (.embed .raster) { grid44 with msglen := 4 } = .next t ∧ t.err = .none :=
  ⟨⟨by decide, exists_next (by decide)⟩, by decide, exists_next_with (by decide) (by decide),
    exists_next_with (by decide) (by decide), exists_next_with (by decide) (by decide), exists_next_with (by decide) (by decide),
    exists_next_with (by decide) (by decide)⟩

/-! Commands. -/

theorem witness_NopRunsPrologueOnly : refused22.state ≠ .traversing ∧ embedding.state = .traversing := by decide

/-- The smallest and the largest grid. -/
theorem witness_SetupLatchesValidGrid :
    State.reset.state ≠ .traversing ∧ gridW 0x00010001 ≠ 0 ∧ gridH 0x00010001 ≠ 0 ∧ gridW 0xFFFFFFFF ≠ 0 ∧
      gridH 0xFFFFFFFF ≠ 0 := by decide

/-- No width, no height, neither. -/
theorem witness_SetupRefusesZeroGrid :
    State.reset.state ≠ .traversing ∧ gridW 0xFFFF0000 = 0 ∧ gridH 0x0000FFFF = 0 ∧ (gridW 0 = 0 ∨ gridH 0 = 0) := by decide

theorem witness_SetupStoresExactParameters : ∃ t, exec .setup { State.reset with grid := 0x00010001 } = .next t ∧ t.cfgok = true :=
  exists_next_with (by decide) (by decide)

theorem witness_UnconfiguredCommandsFail :
    State.reset.state ≠ .traversing ∧ State.reset.cfgok = false ∧
      ∀ i ∈ [Instr.addcp 0, .embed .lcg, .extract .raster, .genStart .lcg, .genNext], i ≠ .nop ∧ i ≠ .setup := by decide

theorem witness_AddcpAddsCodePointModuloMod : keyed.state ≠ .traversing ∧ keyed.cfgok = true := by decide

theorem witness_SeedIsSumOfCodePoints :
    keyed.state ≠ .traversing ∧ keyed.cfgok = true ∧ 1 ≤ keyed.mod.toNat ∧ keyed.seed.toNat < keyed.mod.toNat := by decide

theorem witness_GenStartInitialisesGenerator : keyed.state ≠ .traversing ∧ keyed.cfgok = true := by decide

/-- The last value, and the end. -/
theorem witness_GenNextTakesOneValue :
    keyed.state ≠ .traversing ∧ keyed.cfgok = true ∧
      { keyed with count := 15 }.count.toNat < { keyed with count := 15 }.mod.toNat ∧
      { keyed with count := 16 }.count = { keyed with count := 16 }.mod := by decide

/-- An exact fit: four bytes on 4 × 4. -/
theorem witness_EmbedStartsTraversal :
    let s := { keyed with msglen := 4 }
    s.state ≠ .traversing ∧ s.cfgok = true ∧ s.msglen.toNat ≤ s.cfg.msgbufBytes ∧ 8 * s.msglen.toNat + 16 ≤ 3 * s.mod.toNat := by
  decide

theorem witness_EmbedRefusalsChangeOnlyStatus :
    let s := { keyed with msglen := 65 }
    let u := { keyed with msglen := 64 }
    s.state ≠ .traversing ∧ s.cfgok = true ∧ s.cfg.msgbufBytes < s.msglen.toNat ∧ u.msglen.toNat ≤ u.cfg.msgbufBytes ∧
      3 * u.mod.toNat < 8 * u.msglen.toNat + 16 := by decide

theorem witness_ExtractStartsTraversal : keyed.state ≠ .traversing ∧ keyed.cfgok = true := by decide

/-- A command that is no EXTRACT, and one that is neither. -/
theorem witness_CommandsFrame :
    (∃ t, exec (.embed .lcg) keyed = .next t) ∧ (∀ p, Instr.embed .lcg ≠ .extract p) ∧ (∃ t, exec (.addcp 1) keyed = .next t) ∧
      ∀ p, Instr.addcp 1 ≠ .extract p ∧ Instr.addcp 1 ≠ .embed p :=
  ⟨⟨_, rfl⟩, nofun, ⟨_, rfl⟩, fun _ => ⟨nofun, nofun⟩⟩

theorem witness_OnlySetupWritesConfiguration :
    (∃ t, Instr.addcp 1 ≠ .setup ∧ exec (.addcp 1) keyed = .next t) ∧ (∃ t, engineStep embedding = .next t) ∧
      (∃ t, 0x08 ≠ 0 ∧ regWrite 0x08 0 keyed = .next t) ∧ (∃ t, t = regRead 0x14 keyed) ∧
      (let s := { keyed with agenda := [.imageWrite 3 3 0] }
      (∃ t, step s = .next t) ∧ (∀ rest, s.agenda ≠ .reset :: rest) ∧
        ∀ w, WritesCmd w s → decode w = .ok .setup → s.state = .traversing) ∧
      let s := { embedding with agenda := [.busWrite 0 32 0x10000000] }
      (∃ t, step s = .next t) ∧ (∀ rest, s.agenda ≠ .reset :: rest) ∧ WritesCmd 0x10000000 s ∧ s.state = .traversing :=
  ⟨⟨_, nofun, rfl⟩, exists_next (by decide), ⟨_, by decide, rfl⟩, ⟨_, rfl⟩,
    ⟨exists_next (by decide), nofun, fun w h => by simp [WritesCmd] at h⟩,
    exists_next (by decide), nofun, .inl ⟨[], rfl⟩, by decide⟩

/-! Registers. -/

/-- Each STATE and each ERR code is some state's. -/
theorem witness_StatusFieldsAreLaidOut :
    (∀ c ∈ [(EngineState.idle, 0), (.traversing, 1), (.done, 2), (.exhausted, 3), (.failed, 4)],
        { State.reset with state := c.1 }.state = c.1) ∧
      ∀ c ∈ [(ErrCode.none, 0), (.capacityExceeded, 1), (.exhausted, 2), (.invalidGrid, 3), (.notConfigured, 4), (.badLength, 5),
          (.msgOverflow, 6)], { State.reset with err := c.1 }.err = c.1 := by decide

/-- The first and last read-only register, the first and last reserved offset. -/
theorem witness_ReadOnlyAndReservedIgnoreWrites :
    0x04 ∈ [0x04, 0x18, 0x1C, 0x20, 0x24, 0x28, 0x2C, 0x30, 0x34, 0x38, 0x3C, 0x40, 0x44, 0x48, 0x4C, 0x50, 0x54] ∧
      0x54 ∈ [0x04, 0x18, 0x1C, 0x20, 0x24, 0x28, 0x2C, 0x30, 0x34, 0x38, 0x3C, 0x40, 0x44, 0x48, 0x4C, 0x50, 0x54] ∧
      (0x58 ≤ 0x58 ∧ 0x58 ≤ 0xFC) ∧ 0x58 ≤ 0xFC ∧ 0xFC ≤ 0xFC := by decide

theorem witness_HostAccessesRejectedWhileTraversing :
    embedding.state = .traversing ∧ keyed.state ≠ .traversing ∧ 0x14 ∈ [0x08, 0x0C, 0x10, 0x14] := by decide

/-- The last byte of the buffer, and one past it. -/
theorem witness_MsgdataReadReturnsByteAndAdvances :
    let s := { keyed with msgaddr := 63 }
    let u := { keyed with msgaddr := 64 }
    s.state ≠ .traversing ∧ s.msgaddr.toNat < s.cfg.msgbufBytes ∧ u.state ≠ .traversing ∧ ¬u.msgaddr.toNat < u.cfg.msgbufBytes := by
  decide

theorem witness_MsgdataWriteStoresByteAndAdvances :
    let s := { keyed with msgaddr := 63 }
    let u := { keyed with msgaddr := 64 }
    s.state ≠ .traversing ∧ s.msgaddr.toNat < s.cfg.msgbufBytes ∧ u.state ≠ .traversing ∧ ¬u.msgaddr.toNat < u.cfg.msgbufBytes := by
  decide

theorem witness_OnlyCmdAndMsgdataHaveSideEffects :
    (0x04 ≠ 0x14 ∧ ∃ t, regWrite 0x04 1 keyed = .next t) ∧ 0x10 ≠ 0x14 ∧ 0x10 ≠ 0 ∧ ∃ t, regWrite 0x10 1 keyed = .next t :=
  ⟨⟨by decide, exists_next (by decide)⟩, by decide, by decide, exists_next (by decide)⟩

/-- The first and last word of the window, then a narrow, a misaligned and two outside accesses. -/
theorem witness_UndefinedAccessesAreRefused :
    let s := { State.reset with cfg := { Config.vectors with bufLast := 0, baseWord := 0x400 } }
    (∀ a ∈ [0x1000, 0x10FC], s.cfg.base ≤ a ∧ a ≤ s.cfg.base + 0xFC ∧ (a - s.cfg.base) % 4 = 0) ∧
      ∀ p ∈ [(0x1000, 16), (0x10FD, 32), (0x1100, 32), (0x0FFC, 32)],
        ¬(p.2 = 32 ∧ s.cfg.base ≤ p.1 ∧ p.1 ≤ s.cfg.base + 0xFC ∧ (p.1 - s.cfg.base) % 4 = 0) := by decide

/-! Reset and invariants. -/

theorem inv_embedding : Inv embedding := by constructor <;> decide
theorem inv_extracting : Inv extracting := by constructor <;> decide
theorem inv_smallIdle : Inv smallIdle := by constructor <;> decide
theorem inv_smallEmbed : Inv smallEmbed := by constructor <;> decide
theorem inv_smallExtract : Inv smallExtract := by constructor <;> decide
theorem inv_keyed : Inv keyed := by constructor <;> decide

/-- A reset with nothing raced, and one in a traversal with a raced pixel. -/
theorem witness_ResetGivesResetValues :
    let s := { embedding with agenda := [.reset] }
    let u := { embedding with agenda := [.reset], raced := [3] }
    s.agenda = .reset :: [] ∧ s.raced = [] ∧ u.agenda = .reset :: [] ∧ u.raced ≠ [] ∧ 4 ∉ u.raced := by decide

theorem witness_StepKeepsInvariant : Inv embedding ∧ (∃ t, step embedding = .next t) ∧ Inv keyed ∧ ∃ t, step keyed = .next t :=
  ⟨inv_embedding, exists_next (by decide), inv_keyed, _, rfl⟩

/-- A traversal; an idle host; a listed EMBED, which starts one; a reset in one; a program's NOP by the default turn. -/
theorem witness_StateChangesOnlyAsListed :
    (Inv extracting ∧ extracting.state = .traversing ∧ ∃ t, step extracting = .next t) ∧
      (Inv keyed ∧ keyed.state ≠ .traversing ∧ ∃ t, step keyed = .next t) ∧
      (let s := { keyed with agenda := [.busWrite 0 32 0x30000001] }
      Inv s ∧ s.state ≠ .traversing ∧ WritesCmd 0x30000001 s ∧ ∃ t, step s = .next t ∧ t.state = .traversing) ∧
      (let s := { extracting with agenda := [.reset] }
      Inv s ∧ s.state = .traversing ∧ ∃ t, step s = .next t ∧ t.state = .idle) ∧
      let s := { refused22 with host := { State.reset.host with program := [.wr 0x00 0] } }
      Inv s ∧ s.state = .failed ∧ WritesCmd 0 s ∧ ∃ t, step s = .next t ∧ t.state = .idle :=
  ⟨⟨inv_extracting, by decide, exists_next (by decide)⟩, ⟨inv_keyed, by decide, _, rfl⟩,
    ⟨by constructor <;> decide, by decide, .inl ⟨[], rfl⟩, exists_next_with (by decide) (by decide)⟩,
    ⟨by constructor <;> decide, by decide, exists_next_with (by decide) (by decide)⟩,
    by constructor <;> decide, by decide, .inr ⟨.inl ⟨rfl, by decide⟩, rfl⟩, exists_next_with (by decide) (by decide)⟩

/-! The generator: m = 1 is the smallest modulus, and 3 and 4 are the two cases of 41_sequence R122's last line. -/

theorem witness_IncrementIsFirstCoprimeCandidate : 1 ≤ 1 ∧ 1 ≤ modMax := by decide

theorem witness_IncrementProperties :
    (1 ≤ 3 ∧ 3 % 4 = 3 ∧ Nat.gcd ((3 - 1) / 2) 3 = 1) ∧ 1 ≤ 4 ∧ ¬(4 % 4 = 3 ∧ Nat.gcd ((4 - 1) / 2) 4 = 1) := by decide

theorem witness_RadicalIsProductOfDistinctPrimes : 1 ≤ 1 ∧ 1 ≤ modMax := by decide

theorem witness_MultiplierBounds : (1 ≤ 1 ∧ Squarefree 1) ∧ 1 ≤ 4 := by
  exact ⟨⟨le_refl 1, squarefree_one⟩, by decide⟩

theorem witness_MultiplierIsSuccessorExactlyWhenSquarefree : 1 ≤ 4 := by decide

theorem witness_HullDobellConditionsHold : 1 ≤ 4 ∧ (2 : ℕ).Prime ∧ 2 ∣ 4 ∧ 4 ∣ 4 := ⟨by decide, Nat.prime_two, by decide, by decide⟩

theorem witness_SequenceIsPermutation : Inv keyed ∧ keyed.cfgok = true := ⟨inv_keyed, by decide⟩

theorem witness_SequenceReturnsToStart : Inv keyed ∧ keyed.cfgok = true := ⟨inv_keyed, by decide⟩

theorem witness_RasterOrderIsRowMajor : grid44.policy = .raster ∧ grid44.lcgs = 0 ∧ 15 < grid44.mod.toNat := by decide

theorem witness_MapperStaysInGrid : Inv keyed ∧ keyed.cfgok = true := ⟨inv_keyed, by decide⟩

/-! The framer. -/

theorem witness_SerializerProducesFrame : 23 < 8 * keyed.msglen.toNat + 16 := by decide

theorem witness_ShiftRegisterHoldsLastBits : keyed.sr = 0 ∧ keyed.bitcnt = 0 ∧ (List.replicate 17 true).length < 2 ^ 64 := by decide

/-- Two sentinels, one right after the other. -/
theorem witness_SentinelOccurrencesDoNotOverlap :
    occursAt (sentinelBits ++ sentinelBits) 0 = true ∧ occursAt (sentinelBits ++ sentinelBits) 16 = true ∧ 0 < 16 := by decide

/-- P5's message holds the sentinel, P2's does not: both sides of the equivalence occur. -/
theorem witness_FrameUnframesUnlessSentinelInside :
    occursAt ([0xFF#8, 0xFE#8].flatMap byteBits) 0 = true ∧ unframe (frame [0xFF, 0xFE]) = some [] ∧
      unframe (frame [0x41]) = some [0x41] := by decide

/-! The codec. -/

theorem witness_LsbInsertKeepsUpperBits : lsb 0xFF = true ∧ insertLsb 0xFF true = 0xFF ∧ insertLsb 0xFF false = 0xFE := by decide

/-- The first step of a 24-bit frame, and a step in which R only is written, which ends the embed. -/
theorem witness_EmbedStepWritesOnePixel :
    (Inv embedding ∧ Undisturbed embedding ∧ embedding.state = .traversing ∧ embedding.opk = .embed) ∧
      let s := { smallEmbed with count := 5, bitcnt := 15, lcgs := 5 }
      Inv s ∧ Undisturbed s ∧ s.state = .traversing ∧ s.opk = .embed ∧ frameLength s ≤ s.bitcnt.toNat + 3 :=
  ⟨⟨inv_embedding, by decide, by decide, by decide⟩, by constructor <;> decide, by decide, by decide, by decide, by decide⟩

theorem witness_ExtractNeverWritesImage :
    (keyed.raced = [] ∧ ∃ t, exec (.extract .lcg) keyed = .next t) ∧
      extracting.raced = [] ∧ extracting.opk = .extract ∧ ∃ t, engineStep extracting = .next t :=
  ⟨⟨by decide, _, rfl⟩, by decide, by decide, exists_next (by decide)⟩

theorem witness_TraversalTerminates :
    Inv extracting ∧ extracting.state = .traversing ∧ extracting.agenda = [] := ⟨inv_extracting, by decide, by decide⟩

theorem witness_EmbedWritesTheFrame :
    Inv smallEmbed ∧ Undisturbed smallEmbed ∧ smallEmbed.state = .traversing ∧ smallEmbed.opk = .embed ∧ smallEmbed.count = 0 ∧
      5 < (frameLength smallEmbed + 2) / 3 :=
  ⟨inv_smallEmbed, by decide, by decide, by decide, by decide, by decide⟩

/-- A black image, which holds no message; a white pixel row with a sentinel, which holds the empty one. -/
theorem witness_ExtractComputesUnframe :
    (Inv smallExtract ∧ Undisturbed smallExtract ∧ smallExtract.state = .traversing ∧ smallExtract.opk = .extract ∧
      smallExtract.count = 0 ∧ smallExtract.sr = 0 ∧
      unframe (pixelBits smallExtract.image (emissions smallExtract.mod.toNat smallExtract)) = none) ∧
      let s := { smallExtract with image := (plainImage 3 2 0x010101).setPixel 5 0x000101 }
      Inv s ∧ Undisturbed s ∧ s.state = .traversing ∧ s.opk = .extract ∧ s.count = 0 ∧ s.sr = 0 ∧
        firstOccurrence 0 (pixelBits s.image (emissions s.mod.toNat s)) = some 0 ∧
        unframe (pixelBits s.image (emissions s.mod.toNat s)) = some [] :=
  ⟨⟨inv_smallExtract, by decide, by decide, by decide, by decide, by decide, by decide⟩,
    by constructor <;> decide, by decide, by decide, by decide, by decide, by decide, by decide, by decide⟩

/-- The found message longer than the buffer: 48 bits of a 4 × 4 image hold two bytes before the sentinel, the buffer one. -/
theorem witness_ExtractComputesUnframe_overflow :
    let s := { okState (exec (.extract .raster) grid44) with
      cfg := { Config.vectors with bufLast := 0 },
      image := Image.fill { width := 4, height := 4, epoch := 0, cells := [] } 0
        (List.replicate 5 0 ++ [0x000101] ++ List.replicate 4 0x010101 ++ [0x010000] ++ List.replicate 5 0) }
    Inv s ∧ Undisturbed s ∧ s.state = .traversing ∧ s.opk = .extract ∧ s.count = 0 ∧ s.sr = 0 ∧
      unframe (pixelBits s.image (emissions s.mod.toNat s)) = some [0, 0] ∧ s.cfg.msgbufBytes < [0, 0].length :=
  ⟨by constructor <;> decide, by decide, by decide, by decide, by decide, by decide, by decide, by decide⟩

theorem witness_ExtractAfterEmbedFindsMessage :
    Inv smallIdle ∧ Undisturbed smallIdle ∧ smallIdle.state ≠ .traversing ∧ exec (.embed .raster) smallIdle = .next smallEmbed ∧
      smallEmbed.state = .traversing ∧ ∃ t, run ((frameLength smallIdle + 2) / 3) smallEmbed = .next t :=
  ⟨inv_smallIdle, by decide, by decide, rfl, by decide, exists_next (by decide)⟩

/-- The corner pixel; outside a traversal, and during an extract. -/
theorem witness_HostImagePathReadsAndWrites :
    (3 < keyed.image.width ∧ 3 < keyed.image.height ∧ keyed.state ≠ .traversing) ∧
      3 < extracting.image.width ∧ 3 < extracting.image.height ∧ extracting.opk = .extract := by decide

end Sys2Proof.Tests
end

section
/-! PROOFS. The invariants (10_state R55) in the form the steps use: what holds whatever STATE is, and what a block at rest
or in a traversal adds. Then the operations keep them, one lemma each. -/

namespace Sys2Proof.Proofs

open Sys2Proof Sys2Proof.Machine Sys2Proof.Laws

/-! ### Words and coordinates -/

theorem toNat_toWord {n : Nat} (h : n < 2 ^ 32) : (toWord n).toNat = n := by
  rw [toWord, BitVec.toNat_ofNat, Nat.mod_eq_of_lt h]

theorem gridW_packCoord (x y : Nat) : gridW (packCoord x y) = BitVec.ofNat 16 x :=
  BitVec.extractLsb'_append_eq_right

theorem gridH_packCoord (x y : Nat) : gridH (packCoord x y) = BitVec.ofNat 16 y :=
  BitVec.extractLsb'_append_eq_left

/-- The coordinate's linear index is the state value (41_sequence R132). -/
theorem linearIndex_coord (s : State) : linearIndex (coordX s) (coordY s) (advance s) = s.lcgs.toNat :=
  Nat.div_add_mod' _ _

theorem nextOf_lt (s : State) (v : Nat) (h : 1 ≤ s.mod.toNat) : nextOf s v < s.mod.toNat := by
  unfold nextOf
  split <;> exact Nat.mod_lt _ h

/-! ### The invariants by STATE -/

/-- The generator's registers: those of a configuration, or 0 without one. -/
def GeneratorOk (s : State) : Prop :=
  ConfiguredOk s ∧ ParametersOk s ∧ CoordOk s ∧
    (s.cfgok = false →
      s.mod = 0 ∧ s.mult = 0 ∧ s.inc = 0 ∧ s.seed = 0 ∧ s.lcgs = 0 ∧ s.count = 0 ∧ s.wl = 0 ∧ s.hl = 0)

/-- The image, the pixels raced in it, and its match with the grid. -/
def PictureOk (s : State) : Prop :=
  ImageOk s ∧ (∀ k ∈ s.raced, k < s.image.width * s.image.height) ∧
    (s.gridMatches = true → s.cfgok = true ∧ s.image.width = s.wl.toNat ∧ s.image.height = s.hl.toNat)

/-- What holds whatever STATE is. -/
def Sound (s : State) : Prop := GeneratorOk s ∧ CountersOk s ∧ BufferOk s ∧ PictureOk s

/-- Outside a traversal, races of the last one perhaps not yet settled. -/
def Ended (s : State) : Prop := s.state ≠ .traversing ∧ ErrOk s

/-- Outside a traversal. -/
def Resting (s : State) : Prop := Ended s ∧ s.raced = [] ∧ s.tainted = false

/-- A running embed has bits left, and its message fits the buffer and the grid. -/
def Embedding (s : State) : Prop :=
  s.opk = .embed ∧ s.bitcnt.toNat < frameLength s ∧ frameLength s ≤ 3 * s.mod.toNat ∧
    s.msglen.toNat ≤ s.cfg.msgbufBytes ∧ s.lastop = 3 ∧ s.tainted = false

/-- A running extract has found no sentinel. -/
def Extracting (s : State) : Prop := s.opk = .extract ∧ sentinelFound s = false ∧ s.reslen = 0 ∧ s.lastop = 4

/-- In a traversal between pixel steps. -/
def Traversing (s : State) : Prop :=
  s.state = .traversing ∧ s.err = .none ∧ s.cfgok = true ∧ s.count.toNat < s.mod.toNat ∧
    s.bitcnt.toNat = 3 * s.count.toNat ∧ (Embedding s ∨ Extracting s)

theorem sound_of_inv {s : State} (h : Inv s) : Sound s := by
  obtain ⟨-, -, hpixels, hmatch⟩ := h.bookkeeping
  refine ⟨⟨h.configured, h.parameters, h.coord, fun hc => ?_⟩, h.counters, h.buffer, h.image, hpixels, hmatch⟩
  obtain ⟨h₁, h₂, h₃, h₄, h₅, h₆, h₇, h₈, -⟩ := h.unconfigured hc
  exact ⟨h₁, h₂, h₃, h₄, h₅, h₆, h₇, h₈⟩

theorem resting_of_inv {s : State} (h : Inv s) (hs : s.state ≠ .traversing) : Resting s :=
  ⟨⟨hs, h.err⟩, h.bookkeeping.1 hs⟩

theorem traversing_of_inv {s : State} (h : Inv s) (hs : s.state = .traversing) : Traversing s := by
  obtain ⟨hcfg, hcount, hopk, hbits⟩ := h.traversing hs
  obtain ⟨-, htaint, -⟩ := h.bookkeeping
  refine ⟨hs, h.err.1 (.inr (.inl hs)), hcfg, hcount, hbits, ?_⟩
  cases ho : s.opk with
  | none => exact absurd ho hopk
  | embed =>
    obtain ⟨h₁, h₂, h₃, h₄⟩ := h.embed hs ho
    refine .inl ⟨ho, h₁, h₂, h₃, h₄, ?_⟩
    simpa [ho] using htaint
  | extract => exact .inr ⟨ho, h.extract hs ho⟩

theorem inv_of_resting {s : State} (hr : Resting s) (h : Sound s) : Inv s := by
  obtain ⟨⟨hconf, hpar, hcoord, hblank⟩, hcounters, hbuf, himg, hpixels, hmatch⟩ := h
  obtain ⟨⟨hs, herr⟩, hraced, htaint⟩ := hr
  refine ⟨hconf, hpar, hcoord, fun hc => ?_, fun h => absurd h hs, fun h => absurd h hs, fun h => absurd h hs, herr,
    hcounters, hbuf, himg, fun _ => ⟨hraced, htaint⟩, ?_, hpixels, hmatch⟩
  · obtain ⟨h₁, h₂, h₃, h₄, h₅, h₆, h₇, h₈⟩ := hblank hc
    exact ⟨h₁, h₂, h₃, h₄, h₅, h₆, h₇, h₈, hs⟩
  · simp [htaint]

theorem inv_of_traversing {s : State} (ht : Traversing s) (h : Sound s) : Inv s := by
  obtain ⟨⟨hconf, hpar, hcoord, -⟩, hcounters, hbuf, himg, hpixels, hmatch⟩ := h
  obtain ⟨hs, herr, hcfg, hcount, hbits, hkind⟩ := ht
  have hblank : UnconfiguredOk s := fun hc => by simp [hcfg] at hc
  have herr' : ErrOk s := by simp [ErrOk, hs, herr]
  rcases hkind with ⟨hopk, hmore, hcap, hlen, hop, ht⟩ | ⟨hopk, hno, hreslen, hop⟩
  · exact ⟨hconf, hpar, hcoord, hblank, fun _ => ⟨hcfg, hcount, by simp [hopk], hbits⟩,
      fun _ _ => ⟨hmore, hcap, hlen, hop⟩, fun _ ho => by simp [hopk] at ho, herr', hcounters, hbuf, himg,
      fun hn => absurd hs hn, fun ht' => by simp [ht] at ht', hpixels, hmatch⟩
  · exact ⟨hconf, hpar, hcoord, hblank, fun _ => ⟨hcfg, hcount, by simp [hopk], hbits⟩,
      fun _ ho => by simp [hopk] at ho, fun _ _ => ⟨hno, hreslen, hop⟩, herr', hcounters, hbuf, himg,
      fun hn => absurd hs hn, fun _ => hopk, hpixels, hmatch⟩

theorem inv_iff {s : State} : Inv s ↔ Sound s ∧ (Resting s ∨ Traversing s) := by
  refine ⟨fun h => ⟨sound_of_inv h, ?_⟩, fun ⟨h, hp⟩ => hp.elim (inv_of_resting · h) (inv_of_traversing · h)⟩
  by_cases hs : s.state = .traversing
  · exact .inr (traversing_of_inv h hs)
  · exact .inl (resting_of_inv h hs)
end Sys2Proof.Proofs
end

section
/-! PROOFS. The commands and the host's register accesses keep the invariants (10_state R55). -/

namespace Sys2Proof.Proofs

open Sys2Proof Sys2Proof.Machine Sys2Proof.Laws

/-! ### What a result may be -/

/-- A next state keeps the invariants, and there is no fault. -/
def Keeps : Result → Prop
  | .next t => Inv t
  | .fault _ => False
  | .refused _ => True

/-! ### Fields no invariant names -/

theorem inv_reject {s : State} (h : Inv s) : Inv (reject s) := by
  obtain ⟨hsound, hphase⟩ := inv_iff.1 h
  exact inv_iff.2 ⟨hsound, hphase⟩

theorem inv_bumpMsgaddr {s : State} (h : Inv s) : Inv (bumpMsgaddr s) := by
  obtain ⟨hsound, hphase⟩ := inv_iff.1 h
  exact inv_iff.2 ⟨hsound, hphase⟩

theorem inv_host {s : State} (g : HostAgent) (h : Inv s) : Inv { s with host := g } := by
  obtain ⟨hsound, hphase⟩ := inv_iff.1 h
  exact inv_iff.2 ⟨hsound, hphase⟩

theorem inv_agenda {s : State} (ts : List Turn) (h : Inv s) : Inv { s with agenda := ts } := by
  obtain ⟨hsound, hphase⟩ := inv_iff.1 h
  exact inv_iff.2 ⟨hsound, hphase⟩

/-! ### The commands -/

/-- What the prologue leaves to a command's own rule (40_control R111). -/
def Ready (op : BitVec 4) (s : State) : Prop :=
  Sound s ∧ s.state = .idle ∧ s.err = .none ∧ s.raced = [] ∧ s.tainted = false ∧ s.lastop = op

theorem ready_prologue {op : BitVec 4} {s : State} (h : Inv s) (hs : s.state ≠ .traversing) (hop : op.toNat ≤ 6) :
    Ready op (prologue op s) := by
  obtain ⟨hgen, ⟨-, hbits⟩, hbuf, hpic⟩ := sound_of_inv h
  obtain ⟨-, hraced, htaint⟩ := resting_of_inv h hs
  exact ⟨⟨hgen, ⟨hop, hbits⟩, hbuf, hpic⟩, rfl, rfl, hraced, htaint, rfl⟩

theorem inv_of_idle {s : State} (h : Sound s) (hs : s.state = .idle) (he : s.err = .none) (hr : s.raced = [])
    (ht : s.tainted = false) : Inv s :=
  inv_of_resting ⟨⟨by simp [hs], by simp [ErrOk, hs, he]⟩, hr, ht⟩ h

theorem inv_failWith {e : ErrCode} {s : State} (h : Sound s) (hr : s.raced = []) (ht : s.tainted = false)
    (he : e ≠ .none ∧ e ≠ .exhausted) : Inv (failWith e s) :=
  inv_of_resting ⟨⟨by simp, by simp [ErrOk, he]⟩, hr, ht⟩ h

theorem keeps_command {op : BitVec 4} {body : State → Result} {s : State} (h : Inv s) (hop : op.toNat ≤ 6)
    (hbody : ∀ u, Ready op u → Keeps (body u)) : Keeps (command op body s) := by
  by_cases hs : s.state = .traversing
  · rw [command_traversing hs]
    exact inv_reject h
  · rw [command_accepted hs]
    exact hbody _ (ready_prologue h hs hop)

theorem keeps_configured {op : BitVec 4} {body : State → Result} {s : State} (h : Ready op s)
    (hbody : s.cfgok = true → Keeps (body s)) : Keeps (configured body s) := by
  cases hc : s.cfgok with
  | true => rw [configured_yes hc]; exact hbody hc
  | false =>
    obtain ⟨hsound, -, -, hr, ht, -⟩ := h
    rw [configured_no hc]
    exact inv_failWith hsound hr ht (by decide)

/-! SETUP (41_sequence R138). -/

theorem generatorOk_clearConfig (s : State) : GeneratorOk (clearConfig (clearGenerator s)) := by
  simp [GeneratorOk, ConfiguredOk, ParametersOk, CoordOk, clearConfig, clearGenerator]

theorem grid_product_bounds {w h : BitVec 16} (hw : w ≠ 0) (hh : h ≠ 0) :
    1 ≤ w.toNat * h.toNat ∧ w.toNat * h.toNat < 2 ^ 32 := by
  have hw' : w.toNat ≠ 0 := fun h0 => hw (BitVec.eq_of_toNat_eq h0)
  have hh' : h.toNat ≠ 0 := fun h0 => hh (BitVec.eq_of_toNat_eq h0)
  have hlt : w.toNat * h.toNat < 2 ^ 16 * 2 ^ 16 := Nat.mul_lt_mul'' w.isLt h.isLt
  exact ⟨Nat.one_le_iff_ne_zero.2 (Nat.mul_ne_zero hw' hh'), hlt⟩

theorem generatorOk_latchGrid {w h : BitVec 16} (s : State) (hw : w ≠ 0) (hh : h ≠ 0) :
    GeneratorOk (latchGrid w h (clearGenerator s)) := by
  obtain ⟨hpos, hlt⟩ := grid_product_bounds hw hh
  have hm := toNat_toWord hlt
  have hmod : 0 < (toWord (w.toNat * h.toNat)).toNat := by rwa [hm]
  refine ⟨fun _ => ⟨hm, hmod, hmod, hmod, Nat.zero_le _, hmod⟩, fun _ => ?_, nofun, nofun⟩
  simp [latchGrid, hm]

theorem keeps_setupBody {s : State} (h : Ready 1 s) : Keeps (setupBody s) := by
  obtain ⟨⟨-, hcounters, hbuf, himg, hpixels, -⟩, hs, he, hr, ht, -⟩ := h
  unfold setupBody
  split
  · refine inv_failWith ⟨generatorOk_clearConfig s, hcounters, hbuf, himg, hpixels, ?_⟩ hr ht (by decide)
    simp [clearConfig]
  · next hgrid =>
    obtain ⟨hw, hh⟩ := not_or.1 hgrid
    refine inv_of_idle ⟨generatorOk_latchGrid s hw hh, hcounters, hbuf, himg, hpixels, ?_⟩ hs he hr ht
    simp [latchGrid, clearGenerator]

/-! ADDCP (41_sequence R139). -/

theorem generatorOk_seed {s : State} {v : Word} (h : GeneratorOk s) (hc : s.cfgok = true) (hv : v.toNat < s.mod.toNat) :
    GeneratorOk { s with seed := v } := by
  obtain ⟨hconf, hpar, hcoord, -⟩ := h
  obtain ⟨hmod, hpos, hlcgs, -, hrest⟩ := hconf hc
  exact ⟨fun _ => ⟨hmod, hpos, hlcgs, hv, hrest⟩, hpar, hcoord, fun hn => absurd hn (by simp [hc])⟩

theorem keeps_addcpBody {s : State} (cp : Nat) (h : Ready 2 s) (hc : s.cfgok = true) :
    Keeps (.next { s with seed := toWord ((s.seed.toNat + cp) % s.mod.toNat) }) := by
  obtain ⟨⟨hgen, hrest⟩, hs, he, hr, ht, -⟩ := h
  obtain ⟨-, hpos, -⟩ := hgen.1 hc
  have hlt : (s.seed.toNat + cp) % s.mod.toNat < s.mod.toNat := Nat.mod_lt _ hpos
  refine inv_of_idle ⟨generatorOk_seed hgen hc ?_, hrest⟩ hs he hr ht
  rwa [toNat_toWord (hlt.trans s.mod.isLt)]

/-! GEN_START and GEN_NEXT (41_sequence R130, R131, R140, R141). -/

theorem generatorOk_genInit {s : State} (p : Policy) (h : GeneratorOk s) (hc : s.cfgok = true) :
    GeneratorOk (genInit p s) := by
  obtain ⟨hconf, hpar, -, -⟩ := h
  obtain ⟨hmod, hpos, hlcgs, hseed, hcount, hlast⟩ := hconf hc
  refine ⟨fun _ => ⟨hmod, hpos, ?_, hseed, Nat.zero_le _, hlast⟩, hpar, nofun,
    fun hn => absurd hn (by simp [hc])⟩
  cases p with
  | raster => exact hpos
  | lcg => exact hseed

theorem keeps_genStartBody {s : State} (p : Policy) (h : Ready 5 s) (hc : s.cfgok = true) : Keeps (.next (genInit p s)) := by
  obtain ⟨⟨hgen, hrest⟩, hs, he, hr, ht, -⟩ := h
  exact inv_of_idle ⟨generatorOk_genInit p hgen hc, hrest⟩ hs he hr ht

/-- A state value below WL·HL has its column and its row in the grid (41_sequence R132). -/
theorem coord_in_grid {s : State} (h : GeneratorOk s) (hc : s.cfgok = true) :
    coordX s < s.wl.toNat ∧ coordY s < s.hl.toNat := by
  obtain ⟨hmod, hpos, hlcgs, -⟩ := h.1 hc
  rw [hmod] at hpos hlcgs
  exact ⟨Nat.mod_lt _ (Nat.pos_of_mul_pos_right hpos), Nat.div_lt_of_lt_mul hlcgs⟩

theorem generatorOk_advance {s : State} (h : GeneratorOk s) (hc : s.cfgok = true) (hn : s.count.toNat < s.mod.toNat) :
    GeneratorOk (advance s) := by
  obtain ⟨hx, hy⟩ := coord_in_grid h hc
  obtain ⟨hconf, hpar, -, -⟩ := h
  obtain ⟨hmod, hpos, hlcgs, hseed, -, -⟩ := hconf hc
  have hnext := nextOf_lt s s.lcgs.toNat hpos
  refine ⟨fun _ => ⟨hmod, hpos, ?_, hseed, ?_, hlcgs⟩, hpar, fun _ _ => ⟨?_, ?_, rfl⟩, fun hf => absurd hf (by simp [hc])⟩
  · rwa [advance_lcgs, toNat_toWord (hnext.trans s.mod.isLt)]
  · rwa [advance_count, toNat_toWord (by omega)]
  · rw [advance_coord, gridW_packCoord, BitVec.lt_def, BitVec.toNat_ofNat, Nat.mod_eq_of_lt (hx.trans s.wl.isLt)]
    exact hx
  · rw [advance_coord, gridH_packCoord, BitVec.lt_def, BitVec.toNat_ofNat, Nat.mod_eq_of_lt (hy.trans s.hl.isLt)]
    exact hy

theorem generatorOk_cvalid {s : State} (h : GeneratorOk s) : GeneratorOk { s with cvalid := false } := by
  obtain ⟨hconf, hpar, -, hblank⟩ := h
  exact ⟨hconf, hpar, nofun, hblank⟩

theorem keeps_genNextBody {s : State} (h : Ready 6 s) (hc : s.cfgok = true) : Keeps (genNextBody s) := by
  obtain ⟨⟨hgen, hrest⟩, hs, he, hr, ht, -⟩ := h
  unfold genNextBody
  split
  · exact inv_of_idle ⟨generatorOk_cvalid hgen, hrest⟩ hs he hr ht
  · next hne =>
    obtain ⟨-, -, -, -, hle, -⟩ := hgen.1 hc
    have hlt : s.count.toNat < s.mod.toNat := lt_of_le_of_ne hle fun heq => hne (BitVec.eq_of_toNat_eq heq)
    rw [emit_next hlt]
    exact inv_of_idle ⟨generatorOk_advance hgen hc hlt, hrest⟩ hs he hr ht

/-! EMBED and EXTRACT (43_codec R192, R199). -/

theorem countersOk_bitcnt_zero {s : State} (h : CountersOk s) : CountersOk { s with bitcnt := 0 } :=
  ⟨h.1, by simp⟩

theorem keeps_embedBody {s : State} (p : Policy) (h : Ready 3 s) (hc : s.cfgok = true) : Keeps (embedBody p s) := by
  obtain ⟨hsound, hs, he, hr, ht, hop⟩ := h
  unfold embedBody
  split
  · exact inv_failWith hsound hr ht (by decide)
  · next hlen =>
    split
    · exact inv_failWith hsound hr ht (by decide)
    · next hcap =>
      obtain ⟨hgen, hcounters, hrest⟩ := hsound
      obtain ⟨-, hpos, -⟩ := hgen.1 hc
      have hinit := generatorOk_genInit p hgen hc
      have hbits : 0 < frameLength s := Nat.succ_pos _
      exact inv_of_traversing
        ⟨rfl, he, hc, hpos, rfl, .inl ⟨rfl, hbits, Nat.le_of_not_lt hcap, Nat.le_of_not_lt hlen, hop, ht⟩⟩
        ⟨hinit, countersOk_bitcnt_zero hcounters, hrest⟩

theorem keeps_extractBody {s : State} (p : Policy) (h : Ready 4 s) (hc : s.cfgok = true) :
    Keeps (.next (startExtract p s)) := by
  obtain ⟨⟨hgen, hcounters, hrest⟩, hs, he, hr, ht, hop⟩ := h
  obtain ⟨-, hpos, -⟩ := hgen.1 hc
  have hinit := generatorOk_genInit p hgen hc
  exact inv_of_traversing ⟨rfl, he, hc, hpos, rfl, .inr ⟨rfl, rfl, rfl, hop⟩⟩
    ⟨hinit, countersOk_bitcnt_zero hcounters, hrest⟩

/-- Every command keeps the invariants. -/
theorem keeps_exec {s : State} (i : Instr) (h : Inv s) : Keeps (exec i s) := by
  cases i with
  | nop => exact keeps_command h (by decide) fun _ ⟨hsound, hs, he, hr, ht, _⟩ => inv_of_idle hsound hs he hr ht
  | setup => exact keeps_command h (by decide) fun _ => keeps_setupBody
  | addcp cp => exact keeps_command h (by decide) fun _ hu => keeps_configured hu (keeps_addcpBody cp hu)
  | embed p => exact keeps_command h (by decide) fun _ hu => keeps_configured hu (keeps_embedBody p hu)
  | extract p => exact keeps_command h (by decide) fun _ hu => keeps_configured hu (keeps_extractBody p hu)
  | genStart p => exact keeps_command h (by decide) fun _ hu => keeps_configured hu (keeps_genStartBody p hu)
  | genNext => exact keeps_command h (by decide) fun _ hu => keeps_configured hu (keeps_genNextBody hu)

/-! ### The host's register accesses -/

theorem inv_storeMsgdata {s : State} (v : Word) (h : Inv s) (hs : s.state ≠ .traversing) : Inv (storeMsgdata v s) := by
  obtain ⟨hgen, hcounters, hbuf, hpic⟩ := sound_of_inv h
  have hrest := resting_of_inv h hs
  unfold storeMsgdata
  split
  · next ha => exact inv_of_resting hrest ⟨hgen, hcounters, memWrite_bufferOk _ hbuf ha, hpic⟩
  · exact inv_of_resting hrest ⟨hgen, hcounters, hbuf, hpic⟩

theorem keeps_guarded {f : State → State} {s : State} (h : Inv s) (hf : s.state ≠ .traversing → Inv (f s)) :
    Keeps (guarded f s) := by
  unfold guarded
  split
  · exact inv_reject h
  · next hs => exact hf hs

theorem keeps_cmdWrite {s : State} (w : Word) (h : Inv s) : Keeps (cmdWrite w s) := by
  unfold cmdWrite
  split
  · exact keeps_exec _ h
  · exact inv_reject h

theorem keeps_regWrite {s : State} (off : Nat) (v : Word) (h : Inv s) : Keeps (regWrite off v s) := by
  have hsound := sound_of_inv h
  have hrest := resting_of_inv h
  unfold regWrite
  split
  · exact keeps_cmdWrite v h
  · exact keeps_guarded h fun hs => inv_of_resting (hrest hs) hsound
  · exact keeps_guarded h fun hs => inv_of_resting (hrest hs) hsound
  · exact keeps_guarded h fun hs => inv_of_resting (hrest hs) hsound
  · exact keeps_guarded h (inv_storeMsgdata v h)
  · exact h

theorem inv_readReg {s : State} (r : Reg) (h : Inv s) : Inv (readReg r s).2 := by
  unfold readReg readMsgdata
  split
  · split
    · exact inv_reject h
    · exact inv_bumpMsgaddr h
  · exact h

theorem keeps_busRead {s : State} (addr bits : Nat) (h : Inv s) : Keeps (busRead addr bits s) := by
  unfold busRead
  split
  · exact inv_host _ (inv_readReg _ h)
  · trivial

theorem keeps_busWrite {s : State} (addr bits : Nat) (v : Word) (h : Inv s) : Keeps (busWrite addr bits v s) := by
  unfold busWrite
  split
  · exact keeps_regWrite _ v h
  · trivial

theorem keeps_thenCheck {r : Result} (v : Word) (h : Keeps r) : Keeps (thenCheck v r) := by
  cases r with
  | next t => exact inv_host _ h
  | fault f => exact h
  | refused r => trivial

theorem keeps_hostTurn {s : State} (h : Inv s) : Keeps (hostTurn s) := by
  unfold hostTurn
  split
  · exact h
  · exact keeps_busWrite _ _ _ (inv_host _ h)
  · exact keeps_busRead _ _ (inv_host _ h)
  · exact keeps_thenCheck _ (keeps_busRead _ _ (inv_host _ h))
  · exact inv_host _ h

end Sys2Proof.Proofs
end

section
/-! PROOFS. The engine's pixel steps, the settling of races, reset and the host's own path to the image keep the invariants;
so every step does. -/

namespace Sys2Proof.Proofs

open Sys2Proof Sys2Proof.Machine Sys2Proof.Laws

/-! ### The pixel steps -/

/-- After a pixel step and before the settling of races (43_codec R195, R202): the traversal goes on or has ended. -/
def Stepped (s : State) : Prop := Sound s ∧ (Traversing s ∨ Ended s)

theorem ended_done {s : State} (hs : s.state = .done) (he : s.err = .none) : Ended s :=
  ⟨by simp [hs], by simp [ErrOk, hs, he]⟩

theorem ended_exhausted {s : State} (hs : s.state = .exhausted) (he : s.err = .none) : Ended s :=
  ⟨by simp [hs], by simp [ErrOk, hs, he]⟩

theorem ended_overflow {s : State} (hs : s.state = .failed) (he : s.err = .msgOverflow) : Ended s :=
  ⟨by simp [hs], by simp [ErrOk, hs, he]⟩

theorem bitcnt_succ {b : BitVec 64} {n : Nat} (h : b.toNat < n) (hn : n < 2 ^ 64) : (b + 1).toNat = b.toNat + 1 := by
  have hone : (1 : BitVec 64).toNat = 1 := rfl
  rw [BitVec.toNat_add_of_lt (by omega), hone]

theorem count_advance {s : State} (h : s.count.toNat < s.mod.toNat) : (advance s).count.toNat = s.count.toNat + 1 :=
  toNat_toWord (by have := s.mod.isLt; omega)

/-! The embed step (43_codec R194, R195). -/

theorem pictureOk_pixelWrite {x y : Nat} (p : Pixel) {s : State} (h : PictureOk s)
    (hk : linearIndex x y s < s.wl.toNat * s.hl.toNat) : PictureOk (pixelWrite x y p s) := by
  obtain ⟨⟨hwf, hcells⟩, hraced, hmatch⟩ := h
  unfold pixelWrite
  split
  · next hg =>
    obtain ⟨-, hw, hh⟩ := hmatch hg
    rw [← hw, ← hh] at hk
    exact ⟨⟨setPixel_wf _ p hwf, setPixel_bounded p hcells hk⟩, hraced, hmatch⟩
  · exact ⟨⟨List.Pairwise.nil, nofun⟩, hraced, hmatch⟩

theorem frameLength_lt (s : State) : frameLength s < 9 * 2 ^ 32 := by
  have := s.msglen.isLt
  unfold frameLength
  omega

theorem insertChannel_bitcnt (j : Nat) (sp : State × Pixel) (h : sp.1.bitcnt.toNat ≤ frameLength sp.1) :
    ∃ b, (insertChannel j sp).1 = { sp.1 with bitcnt := b } ∧
      b.toNat = min (frameLength sp.1) (sp.1.bitcnt.toNat + 1) := by
  refine ⟨_, insertChannel_eq j sp, ?_⟩
  split
  · next hlt => rw [bitcnt_succ hlt ((frameLength_lt sp.1).trans (by decide)), min_eq_right hlt]
  · omega

/-- An embed step moves up to three bits (43_codec R194). -/
theorem insertChannels_bitcnt (sp : State × Pixel) (h : sp.1.bitcnt.toNat ≤ frameLength sp.1) :
    ∃ b, (insertChannels sp).1 = { sp.1 with bitcnt := b } ∧
      b.toNat = min (frameLength sp.1) (sp.1.bitcnt.toNat + 3) := by
  obtain ⟨b₀, h₀, hb₀⟩ := insertChannel_bitcnt 0 sp h
  obtain ⟨b₁, h₁, hb₁⟩ := insertChannel_bitcnt 1 (insertChannel 0 sp) (by rw [h₀]; exact hb₀.trans_le (min_le_left _ _))
  rw [h₀] at h₁ hb₁
  obtain ⟨b₂, h₂, hb₂⟩ := insertChannel_bitcnt 2 (insertChannel 1 (insertChannel 0 sp))
    (by rw [h₁]; exact hb₁.trans_le (min_le_left _ _))
  rw [h₁] at h₂ hb₂
  refine ⟨b₂, h₂, ?_⟩
  simp only [frameLength] at *
  omega

/-- Before the endings of an embed step are tested: the step's bits are moved. -/
def EmbedMoved (s : State) : Prop :=
  s.state = .traversing ∧ s.err = .none ∧ s.cfgok = true ∧ s.bitcnt.toNat = min (frameLength s) (3 * s.count.toNat) ∧
    s.opk = .embed ∧ frameLength s ≤ 3 * s.mod.toNat ∧ s.msglen.toNat ≤ s.cfg.msgbufBytes ∧ s.lastop = 3 ∧
    s.tainted = false

theorem stepped_endEmbed {s : State} (h : Sound s) (hm : EmbedMoved s) : Stepped (endEmbed s) := by
  obtain ⟨hs, he, hc, hbits, hopk, hcap, hlen, hop, ht⟩ := hm
  obtain ⟨-, -, -, -, hle, -⟩ := h.1.1 hc
  unfold endEmbed
  split
  · exact ⟨h, .inr (ended_done rfl he)⟩
  · next hmore =>
    -- Bits are left, so the grid, which holds them all (43_codec R192), has pixels left (43_codec R196).
    have hlt : s.count.toNat < s.mod.toNat := by omega
    rw [if_neg fun heq => hlt.ne (congrArg BitVec.toNat heq)]
    exact ⟨h, .inl ⟨hs, he, hc, hlt, by omega, .inl ⟨hopk, by omega, hcap, hlen, hop, ht⟩⟩⟩

theorem stepped_embedPixel {s : State} (h : Sound s) (hrun : Traversing s) (hk : Embedding s) :
    Stepped (embedPixel (coordX s) (coordY s) (advance s)) := by
  obtain ⟨hgen, ⟨hlastop, -⟩, hbuf, hpic⟩ := h
  obtain ⟨hs, he, hc, hn, hbits, -⟩ := hrun
  obtain ⟨hopk, hmore, hcap, hlen, hop, ht⟩ := hk
  have hgen' := generatorOk_advance hgen hc hn
  have hcount := count_advance hn
  obtain ⟨hmod, -, hlcgs, -⟩ := hgen.1 hc
  obtain ⟨n, hread⟩ := pixelRead_eq (coordX s) (coordY s) (advance s)
  obtain ⟨b, hinsert, hb⟩ := insertChannels_bitcnt
    ({ advance s with fresh := n }, (pixelRead (coordX s) (coordY s) (advance s)).1) hmore.le
  simp only [embedPixel, hread, hinsert]
  obtain ⟨m, n', hwrite⟩ := pixelWrite_eq (coordX s) (coordY s)
    (insertChannels ({ advance s with fresh := n }, (pixelRead (coordX s) (coordY s) (advance s)).1)).2
    { advance s with fresh := n, bitcnt := b }
  have hpic' := pictureOk_pixelWrite (x := coordX s) (y := coordY s)
    (insertChannels ({ advance s with fresh := n }, (pixelRead (coordX s) (coordY s) (advance s)).1)).2
    (s := { advance s with fresh := n, bitcnt := b }) hpic ((linearIndex_coord s).trans_lt (hmod ▸ hlcgs))
  rw [hwrite] at hpic' ⊢
  have hb' : b.toNat = min (frameLength s) (3 * (s.count.toNat + 1)) := by
    rw [hb, Nat.mul_succ, ← hbits]; rfl
  have hbmax : b.toNat < 2 ^ 35 := by have := s.count.isLt; omega
  refine stepped_endEmbed ⟨hgen', ⟨hlastop, hbmax⟩, hbuf, hpic'⟩ ⟨hs, he, hc, ?_, hopk, hcap, hlen, hop, ht⟩
  exact hcount ▸ hb'

/-! The extract step (43_codec R201, R202). -/

/-- Inside an extract step, with `n` channels of its pixel left to scan. -/
def Scanning (n : Nat) (s : State) : Prop :=
  s.state = .traversing ∧ s.err = .none ∧ s.cfgok = true ∧ s.bitcnt.toNat + n = 3 * s.count.toNat ∧ Extracting s

theorem stepped_endExtract {s : State} (h : Sound s) (hscan : Scanning 0 s) : Stepped (endExtract s) := by
  obtain ⟨hs, he, hc, hbits, hk⟩ := hscan
  obtain ⟨-, -, -, -, hle, -⟩ := h.1.1 hc
  unfold endExtract
  split
  · exact ⟨h, .inr (ended_exhausted rfl he)⟩
  · next hne =>
    have hlt : s.count.toNat < s.mod.toNat := lt_of_le_of_ne hle fun heq => hne (BitVec.eq_of_toNat_eq heq)
    exact ⟨h, .inl ⟨hs, he, hc, hlt, hbits, .inr hk⟩⟩

theorem stepped_finishMatch {s : State} (h : Sound s) (he : s.err = .none) : Stepped (finishMatch s) := by
  obtain ⟨st, e, n, hend, heq⟩ := finishMatch_eq s
  rw [heq]
  rcases hend with ⟨rfl, rfl⟩ | ⟨rfl, rfl⟩
  · exact ⟨h, .inr (ended_done rfl he)⟩
  · exact ⟨h, .inr (ended_overflow rfl rfl)⟩

theorem stepped_scanChannels (p : Pixel) (js : List Nat) {s : State} (h : Sound s) (hscan : Scanning js.length s) :
    Stepped (scanChannels p js s) := by
  induction js generalizing s with
  | nil => exact stepped_endExtract h hscan
  | cons j js ih =>
    obtain ⟨hgen, ⟨hlastop, hmax⟩, hbuf, hpic⟩ := h
    obtain ⟨hs, he, hc, hbits, hopk, -, hreslen, hop⟩ := hscan
    have hb : (appendBit (lsb (channel j p)) s).bitcnt.toNat = s.bitcnt.toNat + 1 := bitcnt_succ hmax (by decide)
    rw [List.length_cons] at hbits
    have hb' : s.bitcnt.toNat + 1 < 2 ^ 35 := by have := s.count.isLt; omega
    have hbuf' := commit_bufferOk (s := appendBit (lsb (channel j p)) s) hbuf
    obtain ⟨m, hm⟩ := commit_eq (appendBit (lsb (channel j p)) s)
    simp only [scanChannels]
    rw [hm] at hbuf' ⊢
    split
    · exact stepped_finishMatch ⟨hgen, ⟨hlastop, hb.trans_lt hb'⟩, hbuf', hpic⟩ he
    · next hno =>
      refine ih ⟨hgen, ⟨hlastop, hb.trans_lt hb'⟩, hbuf', hpic⟩
        ⟨hs, he, hc, ?_, hopk, Bool.eq_false_of_not_eq_true hno, hreslen, hop⟩
      simp only [hb, appendBit_count]
      omega

theorem stepped_extractPixel {s : State} (h : Sound s) (hrun : Traversing s) (hk : Extracting s) :
    Stepped (extractPixel (coordX s) (coordY s) (advance s)) := by
  obtain ⟨hgen, hrest⟩ := h
  obtain ⟨hs, he, hc, hn, hbits, -⟩ := hrun
  have hgen' := generatorOk_advance hgen hc hn
  obtain ⟨n, hread⟩ := pixelRead_eq (coordX s) (coordY s) (advance s)
  simp only [extractPixel, hread]
  refine stepped_scanChannels _ _ ⟨hgen', hrest⟩ ⟨hs, he, hc, ?_, hk⟩
  simp only [count_advance hn, advance_bitcnt, hbits, List.length_cons, List.length_nil]
  omega

/-! ### The settling of races -/

theorem sound_settlePixels {s : State} (h : Sound s) : Sound (settlePixels s.raced s) := by
  obtain ⟨hgen, hcounters, hbuf, himg, hraced, hmatch⟩ := h
  have himg' := settlePixels_imageOk s.raced himg hraced
  obtain ⟨hw, hh⟩ := settlePixels_size s.raced s
  obtain ⟨m, hm⟩ := settlePixels_eq s.raced s
  rw [hm] at himg' hw hh ⊢
  exact ⟨hgen, hcounters, hbuf, himg', by rwa [hw, hh], by rwa [hw, hh]⟩

theorem ended_outcome (o : Fin 3) {s : State} (hs : s.state = outcomeState o) (he : s.err = outcomeErr o) : Ended s := by
  rcases outcome_cases o with ⟨ho, ho'⟩ | ⟨ho, ho'⟩ | ⟨ho, ho'⟩
  · exact ended_done (hs.trans ho) (he.trans ho')
  · exact ended_exhausted (hs.trans ho) (he.trans ho')
  · exact ended_overflow (hs.trans ho) (he.trans ho')

theorem inv_settleResult {s : State} (h : Sound s) (hend : Ended s) (hr : s.raced = []) : Inv (settleResult s) := by
  unfold settleResult
  split
  · obtain ⟨hgen, hcounters, -, hpic⟩ := h
    exact inv_of_resting ⟨ended_outcome (Config.freeOutcome s.fresh) rfl rfl, hr, rfl⟩
      ⟨hgen, hcounters, ⟨List.Pairwise.nil, nofun⟩, hpic⟩
  · next ht => exact inv_of_resting ⟨hend, hr, Bool.eq_false_of_not_eq_true ht⟩ h

theorem inv_settleRaces {s : State} (h : Stepped s) : Inv (settleRaces s) := by
  obtain ⟨hsound, hrun | hend⟩ := h
  · rw [settleRaces_traversing hrun.1]
    exact inv_of_traversing hrun hsound
  · obtain ⟨hgen, hcounters, hbuf, himg, -, hmatch⟩ := sound_settlePixels hsound
    obtain ⟨m, hm⟩ := settlePixels_eq s.raced s
    rw [settleRaces, if_neg hend.1]
    refine inv_settleResult ⟨hgen, hcounters, hbuf, himg, nofun, hmatch⟩ ?_ rfl
    rw [hm]
    exact hend

theorem keeps_engineStep {s : State} (h : Inv s) (hs : s.state = .traversing) : Keeps (engineStep s) := by
  have hsound := sound_of_inv h
  have hrun := traversing_of_inv h hs
  obtain ⟨-, -, -, hn, -, hk | hk⟩ := traversing_of_inv h hs
  · rw [engineStep_embed hk.1, emit_next hn]
    exact inv_settleRaces (stepped_embedPixel hsound hrun hk)
  · rw [engineStep_extract hk.1, emit_next hn]
    exact inv_settleRaces (stepped_extractPixel hsound hrun hk)

/-! ### Reset -/

/-- Settles O36: each clause is evaluated at the reset state. -/
theorem invariantHoldsAtReset : Obligations.InvariantHoldsAtReset := by
  constructor <;> decide

theorem inv_resetBlock {s : State} (h : Inv s) : Inv (resetBlock s) := by
  obtain ⟨-, -, -, himg, -⟩ := sound_settlePixels (sound_of_inv h)
  obtain ⟨hgen, hcounters, -, -⟩ := sound_of_inv invariantHoldsAtReset
  exact inv_of_resting ⟨⟨nofun, fun _ => rfl, nofun, nofun⟩, rfl, rfl⟩
    ⟨hgen, hcounters, ⟨List.Pairwise.nil, nofun⟩, himg, nofun, nofun⟩

/-! ### The host's own path to the image -/

theorem keeps_imageRead {s : State} (x y : Nat) (h : Inv s) : Keeps (imageRead x y s) := by
  obtain ⟨hsound, hphase⟩ := inv_iff.1 h
  unfold imageRead
  split
  · split
    · exact inv_iff.2 ⟨hsound, hphase⟩
    · exact inv_host _ h
  · trivial

/-- A pixel's linear index in a row-by-row image lies in the image (20_memory R68). -/
theorem index_lt {x y w h : Nat} (hx : x < w) (hy : y < h) : y * w + x < w * h := by
  have : (y + 1) * w ≤ h * w := Nat.mul_le_mul_right w hy
  rw [mul_comm w h]
  linarith

/-- Only an extract is tainted by a race (70_reset R266; log 7). -/
theorem traversing_tainted {s : State} {b : Bool} (h : Traversing s) (hb : b = true → s.opk = .extract) :
    Traversing { s with tainted := b } := by
  obtain ⟨hs, he, hc, hn, hbits, ⟨hopk, hmore, hcap, hlen, hop, -⟩ | hk⟩ := h
  · have ht : b = false := Bool.eq_false_of_not_eq_true fun hb' => absurd (hopk.symm.trans (hb hb')) (by decide)
    exact ⟨hs, he, hc, hn, hbits, .inl ⟨hopk, hmore, hcap, hlen, hop, ht⟩⟩
  · exact ⟨hs, he, hc, hn, hbits, .inr hk⟩

theorem keeps_imageWrite {s : State} (x y : Nat) (p : Pixel) (h : Inv s) : Keeps (imageWrite x y p s) := by
  obtain ⟨hgen, hcounters, hbuf, ⟨hwf, hcells⟩, hraced, hmatch⟩ := sound_of_inv h
  have hrest := resting_of_inv h
  have hrun := traversing_of_inv h
  obtain ⟨-, htaint, -⟩ := h.bookkeeping
  unfold imageWrite
  split
  · next hxy =>
    have hk := index_lt hxy.1 hxy.2
    have himg : ImageOk { s with image := s.image.setPixel (y * s.image.width + x) p } :=
      ⟨setPixel_wf _ p hwf, setPixel_bounded p hcells hk⟩
    dsimp only
    split
    · next hs =>
      refine inv_of_traversing (traversing_tainted (hrun hs) fun ht => ?_) ⟨hgen, hcounters, hbuf, himg, ?_, hmatch⟩
      · rcases Bool.or_eq_true_iff.1 ht with ht | ht
        · exact htaint ht
        · exact eq_of_beq (Bool.and_eq_true_iff.1 ht).1
      · intro l hl
        simp only [markRace] at hl
        split at hl
        · exact hraced l hl
        · exact (List.mem_cons.1 hl).elim (fun heq => heq ▸ hk) (hraced l)
    · next hs => exact inv_of_resting (hrest hs) ⟨hgen, hcounters, hbuf, himg, hraced, hmatch⟩
  · trivial

/-- An image as the host attaches it (70_reset R265 step 1) has its dimensions and is in canonical form. -/
theorem attached_image (w h e : Nat) (pixels : List Pixel) :
    let m := Image.fill { width := w, height := h, epoch := e, cells := [] } 0 (pixels.take (w * h))
    m.width = w ∧ m.height = h ∧ m.cells.wf ∧ ∀ c ∈ m.cells, c.1 < 3 * (w * h) := by
  obtain ⟨hw, hh⟩ := fill_size (pixels.take (w * h)) { width := w, height := h, epoch := e, cells := [] } 0
  exact ⟨hw, hh, fill_wf _ 0 List.Pairwise.nil, fill_bounded _ 0 nofun (by simp)⟩

theorem keeps_attachImage {s : State} (w h : Nat) (pixels : List Pixel) (hi : Inv s) : Keeps (attachImage w h pixels s) := by
  obtain ⟨hgen, hcounters, hbuf, -, -, hmatch⟩ := sound_of_inv hi
  have hrest := resting_of_inv hi
  have hrun := traversing_of_inv hi
  obtain ⟨-, htaint, -⟩ := hi.bookkeeping
  obtain ⟨hw, hh, hwf, hcells⟩ := attached_image w h s.fresh pixels
  unfold attachImage
  generalize Image.fill _ 0 (pixels.take (w * h)) = m at *
  subst hw hh
  have hmatch' : (s.gridMatches && (m.width == s.image.width && m.height == s.image.height)) = true →
      s.cfgok = true ∧ m.width = s.wl.toNat ∧ m.height = s.hl.toNat := by
    simp only [Bool.and_eq_true, beq_iff_eq]
    rintro ⟨hg, hw, hh⟩
    rw [hw, hh]
    exact hmatch hg
  dsimp only
  split
  · next hs =>
    refine inv_of_traversing (traversing_tainted (hrun hs) fun ht => ?_)
      ⟨hgen, hcounters, hbuf, ⟨hwf, hcells⟩, fun k hk => List.mem_range.1 hk, hmatch'⟩
    exact (Bool.or_eq_true_iff.1 ht).elim htaint eq_of_beq
  · next hs =>
    obtain ⟨hend, hr, ht⟩ := hrest hs
    refine inv_of_resting ⟨hend, hr, ht⟩ ⟨hgen, hcounters, hbuf, ⟨hwf, hcells⟩, ?_, hmatch'⟩
    simp [hr]

/-! ### The step -/

theorem keeps_takeTurn {s : State} (u : Turn) (h : Inv s) : Keeps (takeTurn u s) := by
  cases u with
  | host => exact keeps_hostTurn h
  | engine =>
    simp only [takeTurn, engineTurn]
    split
    · next hs => exact keeps_engineStep h hs
    · exact h
  | reset => exact inv_resetBlock h
  | busRead addr bits => exact keeps_busRead addr bits h
  | busWrite addr bits v => exact keeps_busWrite addr bits v h
  | imageRead x y => exact keeps_imageRead x y h
  | imageWrite x y p => exact keeps_imageWrite x y p h
  | attach w h' pixels => exact keeps_attachImage w h' pixels h

theorem keeps_defaultTurn {s : State} (h : Inv s) : Keeps (defaultTurn s) := by
  by_cases hs : s.state = .traversing
  · rw [defaultTurn_traversing hs]
    exact keeps_engineStep h hs
  · rw [defaultTurn_host hs]
    exact keeps_hostTurn h

theorem keeps_step {s : State} (h : Inv s) : Keeps (step s) := by
  cases ha : s.agenda with
  | nil => rw [step_nil ha]; exact keeps_defaultTurn h
  | cons u rest => rw [step_cons ha]; exact keeps_takeTurn u (inv_agenda rest h)

/-- Settles O37: every agent's turn keeps the invariants, STATE by STATE. -/
theorem stepKeepsInvariant : Obligations.StepKeepsInvariant := by
  intro s h
  have hk := keeps_step h
  refine ⟨fun t ht => ?_, fun f hf => ?_⟩
  · rwa [ht] at hk
  · rwa [hf] at hk

end Sys2Proof.Proofs
end

section
/-! PROOFS. What a command can do, said once; from it what no command changes, and that only SETUP and reset write the
configuration. -/

namespace Sys2Proof.Proofs

open Sys2Proof Sys2Proof.Machine Sys2Proof.Laws

/-! ### What a command can do after its prologue -/

/-- What a command's own rule can make of the state its prologue left (60_exceptions R241). -/
inductive Effect : Instr → State → State → Prop
  | nop (u : State) : Effect .nop u u
  | setupFails (u : State) : Effect .setup u (failWith .invalidGrid (clearConfig (clearGenerator u)))
  | setup (w h : BitVec 16) (u : State) : Effect .setup u (latchGrid w h (clearGenerator u))
  | fails {i : Instr} (hi : i ≠ .setup) (e : ErrCode) (u : State) : Effect i u (failWith e u)
  | addcp (cp : Nat) (seed : Word) (u : State) : Effect (.addcp cp) u { u with seed := seed }
  | embed (p : Policy) (u : State) : Effect (.embed p) u (startEmbed p u)
  | extract (p : Policy) (u : State) : Effect (.extract p) u (startExtract p u)
  | genStart (p : Policy) (u : State) : Effect (.genStart p) u (genInit p u)
  | genEnd (u : State) : Effect .genNext u { u with cvalid := false }
  | genNext (u : State) : Effect .genNext u (advance u)

theorem effect_configured {i : Instr} {body : State → Result} {u t : State} (hi : i ≠ .setup)
    (h : configured body u = .next t) (hbody : body u = .next t → Effect i u t) : Effect i u t := by
  rcases configured_cases h with ⟨-, hb⟩ | ⟨-, rfl⟩
  · exact hbody hb
  · exact .fails hi _ u

theorem effect_setup {u t : State} (h : setupBody u = .next t) : Effect .setup u t := by
  unfold setupBody at h
  split at h
  · cases h; exact .setupFails u
  · cases h; exact .setup _ _ u

theorem effect_embed {p : Policy} {u t : State} (h : embedBody p u = .next t) : Effect (.embed p) u t := by
  unfold embedBody at h
  split at h
  · cases h; exact .fails (by simp) _ u
  · split at h
    · cases h; exact .fails (by simp) _ u
    · cases h; exact .embed p u

theorem effect_genNext {u t : State} (h : genNextBody u = .next t) : Effect .genNext u t := by
  unfold genNextBody at h
  split at h
  · cases h; exact .genEnd u
  · obtain ⟨-, h⟩ := emit_cases h
    cases h; exact .genNext u

/-- A command is rejected, or takes its effect after its prologue (40_control R110). -/
theorem exec_cases {i : Instr} {s t : State} (h : exec i s = .next t) :
    (s.state = .traversing ∧ t = reject s) ∨ (s.state ≠ .traversing ∧ Effect i (prologue i.opcode s) t) := by
  by_cases hs : s.state = .traversing
  · rw [exec_traversing hs] at h
    cases h
    exact .inl ⟨hs, rfl⟩
  refine .inr ⟨hs, ?_⟩
  cases i with
  | nop => rw [exec, execNop, command_accepted hs] at h; cases h; exact .nop _
  | setup => rw [exec, execSetup, command_accepted hs] at h; exact effect_setup h
  | addcp cp =>
    rw [exec, execAddcp, command_accepted hs] at h
    exact effect_configured nofun h fun hb => by cases hb; exact .addcp cp _ _
  | embed p =>
    rw [exec, execEmbed, command_accepted hs] at h
    exact effect_configured nofun h effect_embed
  | extract p =>
    rw [exec, execExtract, command_accepted hs] at h
    exact effect_configured nofun h fun hb => by cases hb; exact .extract p _
  | genStart p =>
    rw [exec, execGenStart, command_accepted hs] at h
    exact effect_configured nofun h fun hb => by cases hb; exact .genStart p _
  | genNext =>
    rw [exec, execGenNext, command_accepted hs] at h
    exact effect_configured nofun h effect_genNext

/-! ### The frame of all commands -/

/-- What no command writes: MSGBUF, the image, the host's registers, the host, the turns to come, the parameters. -/
def untouched (s : State) :=
  (s.msgbuf, s.bufEpoch, s.image, s.grid, s.msglen, s.msgaddr, s.host, s.agenda, s.cfg)

theorem exec_untouched {i : Instr} {s t : State} (h : exec i s = .next t) : untouched t = untouched s := by
  rcases exec_cases h with ⟨-, rfl⟩ | ⟨-, heff⟩
  · rfl
  · cases heff <;> rfl

theorem exec_sr_reslen {i : Instr} {s t : State} (h : exec i s = .next t) (hi : ∀ p, i ≠ .extract p) :
    t.sr = s.sr ∧ t.reslen = s.reslen := by
  rcases exec_cases h with ⟨-, rfl⟩ | ⟨-, heff⟩
  · exact ⟨rfl, rfl⟩
  · cases heff with
    | extract p => exact absurd rfl (hi p)
    | _ => exact ⟨rfl, rfl⟩

theorem exec_bitcnt_opk {i : Instr} {s t : State} (h : exec i s = .next t) (hx : ∀ p, i ≠ .extract p)
    (he : ∀ p, i ≠ .embed p) : t.bitcnt = s.bitcnt ∧ t.opk = s.opk := by
  rcases exec_cases h with ⟨-, rfl⟩ | ⟨-, heff⟩
  · exact ⟨rfl, rfl⟩
  · cases heff with
    | extract p => exact absurd rfl (hx p)
    | embed p => exact absurd rfl (he p)
    | _ => exact ⟨rfl, rfl⟩

/-- Settles O22, by the effects a command can have. -/
theorem commandsFrame : Obligations.CommandsFrame := by
  intro i s t h
  have hu := exec_untouched h
  simp only [untouched, Prod.mk.injEq] at hu
  obtain ⟨hbuf, hepoch, himg, hgrid, hlen, haddr, hhost, hagenda, hcfg⟩ := hu
  refine ⟨fun a => ?_, fun a => by rw [himg], hgrid, hlen, haddr, hhost, hagenda, hcfg, exec_sr_reslen h, exec_bitcnt_opk h⟩
  rw [bufByte, bufByte, hbuf, hepoch]

/-! ### The configuration -/

/-- The configuration registers (10_state R27, R37 to R39, R53). -/
def configuration (s : State) := (s.cfgok, s.mod, s.mult, s.inc, s.wl, s.hl)

theorem exec_configuration {i : Instr} {s t : State} (h : exec i s = .next t)
    (hi : i = .setup → s.state = .traversing) : configuration t = configuration s := by
  rcases exec_cases h with ⟨-, rfl⟩ | ⟨hs, heff⟩
  · rfl
  · cases heff with
    | setupFails => exact absurd (hi rfl) hs
    | setup => exact absurd (hi rfl) hs
    | _ => rfl

/-! The pixel steps. -/

theorem configuration_insertChannels (sp : State × Pixel) :
    configuration (insertChannels sp).1 = configuration sp.1 := by
  simp only [insertChannels, insertChannel_eq]
  rfl

theorem configuration_embedPixel (x y : Nat) (s : State) : configuration (embedPixel x y s) = configuration s := by
  obtain ⟨n, hread⟩ := pixelRead_eq x y s
  simp only [embedPixel, hread]
  generalize hsp : insertChannels _ = sp
  have hinsert := congrArg (configuration ·.1) hsp
  rw [configuration_insertChannels] at hinsert
  obtain ⟨m, n', hwrite⟩ := pixelWrite_eq x y sp.2 sp.1
  obtain ⟨st, e, hend⟩ := endEmbed_eq (pixelWrite x y sp.2 sp.1)
  rw [hend, hwrite]
  exact hinsert.symm

theorem configuration_extractPixel (x y : Nat) (s : State) : configuration (extractPixel x y s) = configuration s := by
  obtain ⟨n, hread⟩ := pixelRead_eq x y s
  simp only [extractPixel]
  obtain ⟨st, e, k, b, r, m, hscan⟩ := scanChannels_eq (pixelRead x y s).1 [0, 1, 2] (pixelRead x y s).2
  rw [hscan, hread]
  rfl

theorem configuration_settleRaces (s : State) : configuration (settleRaces s) = configuration s := by
  unfold settleRaces
  split
  · rfl
  · obtain ⟨m, hpixels⟩ := settlePixels_eq s.raced s
    obtain ⟨st, e, n, b, k, f, hresult⟩ := settleResult_eq { settlePixels s.raced s with raced := [] }
    rw [hresult, hpixels]
    rfl

theorem engineStep_configuration {s t : State} (h : engineStep s = .next t) : configuration t = configuration s := by
  unfold engineStep at h
  split at h
  · obtain ⟨-, h⟩ := emit_cases h
    cases h
    rw [configuration_settleRaces, configuration_embedPixel]
    rfl
  · obtain ⟨-, h⟩ := emit_cases h
    cases h
    rw [configuration_settleRaces, configuration_extractPixel]
    rfl
  · cases h
    rfl

/-! Register accesses and the host's turns: a write of SETUP to CMD outside a traversal is shut out by hypothesis. -/

theorem regWrite_configuration {off : Nat} {v : Word} {s t : State} (h : regWrite off v s = .next t)
    (hv : off = 0 → decode v = .ok .setup → s.state = .traversing) : configuration t = configuration s := by
  rcases regWrite_cases h with ⟨h0, hcmd⟩ | ⟨-, rfl⟩ | ⟨-, rfl | rfl | rfl | rfl⟩ | rfl
  · rcases cmdWrite_cases hcmd with ⟨i, hd, hexec⟩ | ⟨-, rfl⟩
    · exact exec_configuration hexec fun hi => hv h0 (hi ▸ hd)
    · rfl
  · rfl
  · rfl
  · rfl
  · rfl
  · unfold storeMsgdata
    split <;> rfl
  · rfl

theorem regRead_configuration (off : Nat) (s : State) : configuration (regRead off s) = configuration s := by
  unfold regRead readReg readMsgdata
  split
  · split <;> rfl
  · rfl

theorem busWrite_configuration {addr bits : Nat} {v : Word} {s t : State} (h : busWrite addr bits v s = .next t)
    (hv : addr = s.cfg.base → bits = 32 → decode v = .ok .setup → s.state = .traversing) :
    configuration t = configuration s := by
  unfold busWrite at h
  split at h
  · next off hoff =>
    obtain ⟨hbits, hbase, hoff, -, -⟩ := accessOffset_ok hoff
    exact regWrite_configuration h fun h0 => hv (by omega) hbits
  · cases h

theorem busRead_configuration {addr bits : Nat} {s t : State} (h : busRead addr bits s = .next t) :
    configuration t = configuration s := by
  unfold busRead at h
  split at h
  · cases h; exact regRead_configuration _ s
  · cases h

theorem thenCheck_configuration {v : Word} {r : Result} {t c : State} (h : thenCheck v r = .next t)
    (hr : ∀ u, r = .next u → configuration u = configuration c) : configuration t = configuration c := by
  cases r with
  | next u => cases h; exact hr u rfl
  | fault f => cases h
  | refused f => cases h

theorem hostTurn_configuration {s t : State} (h : hostTurn s = .next t)
    (hv : ∀ w, s.host.program[s.host.pc]? = some (.wr 0x00 w) → decode w = .ok .setup → s.state = .traversing) :
    configuration t = configuration s := by
  unfold hostTurn at h
  split at h
  · cases h; rfl
  · next off v hstmt =>
    have hc := busWrite_configuration h fun haddr _ => hv v (by rw [hstmt, Nat.add_eq_left.1 haddr])
    exact hc
  · have hc := busRead_configuration h
    exact hc
  · have hc := thenCheck_configuration h fun _ => busRead_configuration
    exact hc
  · cases h; rfl

theorem imageRead_configuration {x y : Nat} {s t : State} (h : imageRead x y s = .next t) :
    configuration t = configuration s := by
  unfold imageRead at h
  split at h
  · split at h <;> cases h <;> rfl
  · cases h

theorem imageWrite_configuration {x y : Nat} {p : Pixel} {s t : State} (h : imageWrite x y p s = .next t) :
    configuration t = configuration s := by
  unfold imageWrite at h
  split at h
  · cases h
    split <;> rfl
  · cases h

theorem attachImage_configuration {w h : Nat} {pixels : List Pixel} {s t : State}
    (ht : attachImage w h pixels s = .next t) : configuration t = configuration s := by
  cases ht
  split <;> rfl

theorem takeTurn_configuration {u : Turn} {s t : State} (h : takeTurn u s = .next t) (hr : u ≠ .reset)
    (hbus : ∀ w, u = .busWrite s.cfg.base 32 w → decode w = .ok .setup → s.state = .traversing)
    (hhost : ∀ w, u = .host → s.host.program[s.host.pc]? = some (.wr 0x00 w) → decode w = .ok .setup →
      s.state = .traversing) : configuration t = configuration s := by
  cases u with
  | host => exact hostTurn_configuration h fun w => hhost w rfl
  | engine =>
    simp only [takeTurn, engineTurn] at h
    split at h
    · exact engineStep_configuration h
    · cases h; rfl
  | reset => exact absurd rfl hr
  | busRead addr bits => exact busRead_configuration h
  | busWrite addr bits v => exact busWrite_configuration h fun haddr hbits => hbus v (by rw [haddr, hbits])
  | imageRead x y => exact imageRead_configuration h
  | imageWrite x y p => exact imageWrite_configuration h
  | attach w h' pixels => exact attachImage_configuration h

theorem step_configuration {s t : State} (h : step s = .next t) (hr : ∀ rest, s.agenda ≠ .reset :: rest)
    (hv : ∀ w, WritesCmd w s → decode w = .ok .setup → s.state = .traversing) : configuration t = configuration s := by
  rcases step_cases h with ⟨ha, h⟩ | ⟨u, rest, ha, h⟩
  · by_cases hs : s.state = .traversing
    · rw [defaultTurn_traversing hs] at h
      exact engineStep_configuration h
    · rw [defaultTurn_host hs] at h
      exact hostTurn_configuration h fun w hw => hv w (.inr ⟨.inl ⟨ha, hs⟩, hw⟩)
  · have hc := takeTurn_configuration h (fun hu => hr rest (hu ▸ ha)) (fun w hu => hv w (.inl ⟨rest, hu ▸ ha⟩))
      fun w hu hw => hv w (.inr ⟨.inr ⟨rest, hu ▸ ha⟩, hw⟩)
    exact hc

/-- Settles O23, by agent and access. -/
theorem onlySetupWritesConfiguration : Obligations.OnlySetupWritesConfiguration := by
  intro s t h
  have hc : configuration t = configuration s := by
    rcases h with ⟨i, hi, h⟩ | h | ⟨off, v, h0, h⟩ | ⟨off, rfl⟩ | ⟨h, hr, hv⟩
    · exact exec_configuration h fun hsetup => absurd hsetup hi
    · exact engineStep_configuration h
    · exact regWrite_configuration h fun hoff => absurd hoff h0
    · exact regRead_configuration off s
    · exact step_configuration h hr hv
  simpa only [configuration, Prod.mk.injEq] using hc

end Sys2Proof.Proofs
end

section
/-! PROOFS. The register window (10_state R22 to R51), and the step that runs a command's word. -/

namespace Sys2Proof.Proofs

open Sys2Proof Sys2Proof.Machine Sys2Proof.Laws

/-! ### Dispatch of a command's word -/

theorem busWrite_base (w : Word) (s : State) : busWrite s.cfg.base 32 w s = cmdWrite w s := by
  rw [busWrite, accessOffset_base]
  rfl

theorem cmdWrite_decoded {w : Word} {i : Instr} (h : decode w = .ok i) (s : State) : cmdWrite w s = exec i s := by
  rw [cmdWrite, h]

theorem decode_tableWord {nbits w : Nat} {i : Instr} (h : decodeTableWord nbits w = some i) :
    decode (tableWord nbits w) = .ok i := by
  unfold decodeTableWord at h
  split at h
  · next hd => cases h; exact hd
  · cases h

theorem step_cmdTurn {s : State} {w : Word} {i : Instr} {rest : List Turn} (ha : s.agenda = cmdTurn s.cfg w :: rest)
    (hd : decode w = .ok i) : step s = exec i { s with agenda := rest } := by
  rw [step_cons ha]
  exact (busWrite_base w { s with agenda := rest }).trans (cmdWrite_decoded hd _)

/-- Settles O6: a write to BASE is a CMD write. -/
theorem stepRunsDecodedCommand : Obligations.StepRunsDecodedCommand :=
  ⟨fun _ _ _ _ ha hd => step_cmdTurn ha hd,
    fun s nbits w _ hd => step_cmdTurn (s := s.withFetchWord nbits w) rfl (decode_tableWord hd)⟩

/-! ### Reads -/

/-- A read of a register other than MSGDATA returns its view and changes nothing in the block. -/
theorem regRead_view {off : Nat} (s : State) (h : Reg.ofOffset off ≠ .msgdata) :
    regRead off s = hostTakes (regView (Reg.ofOffset off) s) s := by
  unfold regRead readReg
  split
  · next hr => exact absurd hr h
  · rfl

theorem lastRead_regRead {off : Nat} (s : State) (h : Reg.ofOffset off ≠ .msgdata) :
    (regRead off s).host.lastRead = regView (Reg.ofOffset off) s := by
  rw [regRead_view s h]
  rfl

/-- Settles O25: each offset's register, and its view. -/
theorem registersReadBackTheirContents : Obligations.RegistersReadBackTheirContents := by
  intro s
  simp [lastRead_regRead, Reg.ofOffset, regView, reslenView]

/-! ### Wide views -/

theorem toNat_hiHalf {n : Nat} (h : n < 2 ^ 64) : (hiHalf n).toNat = n / 2 ^ 32 :=
  toNat_toWord (Nat.div_lt_of_lt_mul h)

theorem halves_eq {n : Nat} (h : n < 2 ^ 64) : (loHalf n).toNat + 2 ^ 32 * (hiHalf n).toNat = n := by
  rw [toNat_hiHalf h, loHalf, toWord, BitVec.toNat_ofNat]
  exact Nat.mod_add_div n (2 ^ 32)

theorem capacity_lt (s : State) : capacity s < 3 * 2 ^ 32 := by
  have := s.mod.isLt
  unfold capacity
  split <;> omega

/-- Settles O26: each value is below 2^64, so its halves together are it. -/
theorem wideViewsAreExact : Obligations.WideViewsAreExact := by
  intro s
  have hcap := capacity_lt s
  have hreq := frameLength_lt s
  simp only [lastRead_regRead, Reg.ofOffset, regView, ne_eq, reduceCtorEq, not_false_eq_true]
  refine ⟨halves_eq (by omega), halves_eq (by omega), halves_eq s.bitcnt.isLt, ?_, ?_⟩
  · rw [toNat_hiHalf (by omega)]; omega
  · rw [toNat_hiHalf (by omega)]; omega

/-- Refutes O27: MSGLEN = 0xFFFFFFFF gives REQ = 0x800000008 (95_test_vectors E4). -/
theorem not_reqHiStaysBelowEight : ¬ Obligations.ReqHiStaysBelowEight := by
  intro h
  exact absurd (h { State.reset with msglen := 0xFFFFFFFF }) (by decide)

/-! ### Read-only registers and reserved offsets -/

theorem ofOffset_reserved {off : Nat} (h : 0x58 ≤ off) : Reg.ofOffset off = .reserved := by
  unfold Reg.ofOffset
  split <;> simp at h ⊢

theorem regWrite_reserved {off : Nat} (v : Word) (s : State) (h : 0x58 ≤ off) : regWrite off v s = .next s := by
  rw [regWrite, ofOffset_reserved h]

/-- Settles O28: the listed offsets one by one, the reserved ones through `Reg.ofOffset`. -/
theorem readOnlyAndReservedIgnoreWrites : Obligations.ReadOnlyAndReservedIgnoreWrites := by
  refine ⟨fun off v s hoff => ?_, fun off s hoff _ => ⟨?_, fun v => regWrite_reserved v s hoff⟩⟩
  · fin_cases hoff <;> rfl
  · have hr := ofOffset_reserved hoff
    rw [regRead_view s (by rw [hr]; decide), hr]
    rfl

/-! ### STATUS -/

theorem field_above {n m start len : Nat} {x : BitVec n} {y : BitVec m} {v : BitVec len} (h : m ≤ start)
    (hx : x.extractLsb' (start - m) len = v) : (x ++ y).extractLsb' start len = v :=
  (BitVec.extractLsb'_append_eq_of_le h).trans hx

theorem getLsbD_of_field {n i : Nat} {w : BitVec n} {b : Bool} (h : w.extractLsb' i 1 = BitVec.ofBool b) :
    w.getLsbD i = b := by
  have hb := congrArg (BitVec.getLsbD · 0) h
  simpa using hb

/-- The layout of STATUS (10_state R24): below each field lie the fields peeled off here. -/
theorem statusWord_fields (s : State) :
    let w := statusWord s
    w.extractLsb' 0 3 = stateCode s.state ∧ w.extractLsb' 3 1 = 0#1 ∧ w.extractLsb' 4 4 = errCode s.err ∧
      w.extractLsb' 8 1 = BitVec.ofBool s.cfgok ∧ w.extractLsb' 9 1 = BitVec.ofBool s.rej ∧
      w.extractLsb' 10 1 = BitVec.ofBool (seqEnd s) ∧ w.extractLsb' 11 1 = BitVec.ofBool s.cvalid ∧
      w.extractLsb' 12 1 = BitVec.ofBool (policyFlag s.policy) ∧ w.extractLsb' 13 3 = 0#3 ∧
      w.extractLsb' 16 4 = s.lastop ∧ w.extractLsb' 20 12 = 0#12 := by
  unfold statusWord
  refine ⟨BitVec.extractLsb'_append_eq_right, ?_, ?_, ?_, ?_, ?_, ?_, ?_, ?_, ?_, ?_⟩
  · exact field_above (by decide) BitVec.extractLsb'_append_eq_right
  · iterate 2 refine field_above (by decide) ?_
    exact BitVec.extractLsb'_append_eq_right
  · iterate 3 refine field_above (by decide) ?_
    exact BitVec.extractLsb'_append_eq_right
  · iterate 4 refine field_above (by decide) ?_
    exact BitVec.extractLsb'_append_eq_right
  · iterate 5 refine field_above (by decide) ?_
    exact BitVec.extractLsb'_append_eq_right
  · iterate 6 refine field_above (by decide) ?_
    exact BitVec.extractLsb'_append_eq_right
  · iterate 7 refine field_above (by decide) ?_
    exact BitVec.extractLsb'_append_eq_right
  · iterate 8 refine field_above (by decide) ?_
    exact BitVec.extractLsb'_append_eq_right
  · iterate 9 refine field_above (by decide) ?_
    exact BitVec.extractLsb'_append_eq_right
  · iterate 10 refine field_above (by decide) ?_
    rfl

/-- Settles O24, from the layout and the two tables of codes. -/
theorem statusFieldsAreLaidOut : Obligations.StatusFieldsAreLaidOut := by
  intro s
  obtain ⟨hstate, h3, herr, hcfgok, hrej, hseqend, hcvalid, hpolicy, h13, hlastop, h20⟩ := statusWord_fields s
  refine ⟨?_, h3, ?_, getLsbD_of_field hcfgok, getLsbD_of_field hrej, getLsbD_of_field hseqend,
    getLsbD_of_field hcvalid, ?_, h13, hlastop, h20, fun v => rfl, rfl, by decide⟩
  · rw [hstate]
    cases s.state <;> decide
  · rw [herr]
    cases s.err <;> decide
  · rw [getLsbD_of_field hpolicy]
    cases s.policy <;> rfl

end Sys2Proof.Proofs
end

section
/-! PROOFS. The host's accesses (20_memory): which ones the window takes, the MSGDATA window, the writes a traversal rejects,
and the host's own path to the image. -/

namespace Sys2Proof.Proofs

open Sys2Proof Sys2Proof.Machine Sys2Proof.Laws

/-! ### The guarded registers and the MSGDATA window -/

theorem succ_eq_toWord (a : Word) : a + 1 = toWord ((a.toNat + 1) % 2 ^ 32) := by
  apply BitVec.eq_of_toNat_eq
  simp [toWord, BitVec.toNat_add]

theorem guarded_traversing (f : State → State) {s : State} (h : s.state = .traversing) :
    guarded f s = .next (reject s) := if_pos h

theorem guarded_resting (f : State → State) {s : State} (h : s.state ≠ .traversing) :
    guarded f s = .next (f s) := if_neg h

theorem readMsgdata_traversing {s : State} (h : s.state = .traversing) : readMsgdata s = (0, reject s) := if_pos h

theorem readMsgdata_resting {s : State} (h : s.state ≠ .traversing) :
    readMsgdata s =
      (if s.msgaddr.toNat < s.cfg.msgbufBytes then (bufByte s s.msgaddr.toNat).setWidth 32 else 0, bumpMsgaddr s) :=
  if_neg h

theorem regRead_msgdata (s : State) : regRead 0x14 s = hostTakes (readMsgdata s).1 (readMsgdata s).2 := rfl

theorem regWrite_grid (v : Word) (s : State) : regWrite 0x08 v s = guarded (fun s => { s with grid := v }) s := rfl

theorem regWrite_msglen (v : Word) (s : State) : regWrite 0x0C v s = guarded (fun s => { s with msglen := v }) s := rfl

theorem regWrite_msgaddr (v : Word) (s : State) : regWrite 0x10 v s = guarded (fun s => { s with msgaddr := v }) s := rfl

theorem regWrite_msgdata (v : Word) (s : State) : regWrite 0x14 v s = guarded (storeMsgdata v) s := rfl

/-- What a MSGDATA write stores, and that every other byte reads as before (20_memory R65). -/
theorem storeMsgdata_eq (v : Word) (s : State) :
    ∃ m, storeMsgdata v s = { s with msgaddr := s.msgaddr + 1, msgbuf := m } ∧
      ∀ a, bufByte { s with msgbuf := m } a =
        if a = s.msgaddr.toNat ∧ s.msgaddr.toNat < s.cfg.msgbufBytes then v.extractLsb' 0 8 else bufByte s a := by
  unfold storeMsgdata
  split
  · next h =>
    refine ⟨s.msgbuf.write s.msgaddr.toNat (v.extractLsb' 0 8), rfl, fun a => ?_⟩
    simp only [h, and_true]
    exact bufByte_memWrite s s.msgaddr.toNat a (v.extractLsb' 0 8)
  · next h => exact ⟨s.msgbuf, rfl, fun a => (if_neg fun hc => h hc.2).symm⟩

/-- Settles O31, from what `storeMsgdata` writes. -/
theorem msgdataWriteStoresByteAndAdvances : Obligations.MsgdataWriteStoresByteAndAdvances := by
  intro v s hs
  obtain ⟨m, hstore, hbytes⟩ := storeMsgdata_eq v s
  refine ⟨m, ?_, hbytes⟩
  rw [regWrite_msgdata, guarded_resting _ hs, hstore, succ_eq_toWord]

/-- Settles O30, from what `readMsgdata` returns at rest. -/
theorem msgdataReadReturnsByteAndAdvances : Obligations.MsgdataReadReturnsByteAndAdvances := by
  intro s hs
  rw [regRead_msgdata, readMsgdata_resting hs, ← succ_eq_toWord]
  rfl

/-- The host-writable registers of 10_state R52 are written under the guard of a traversal. -/
theorem regWrite_eq_guarded {off : Nat} (v : Word) (s : State) (h : off ∈ [0x08, 0x0C, 0x10, 0x14]) :
    ∃ f, regWrite off v s = guarded f s := by
  fin_cases h
  · exact ⟨_, regWrite_grid v s⟩
  · exact ⟨_, regWrite_msglen v s⟩
  · exact ⟨_, regWrite_msgaddr v s⟩
  · exact ⟨_, regWrite_msgdata v s⟩

/-- Settles O29: the guard decides each write, and a MSGDATA read tests STATE first. -/
theorem hostAccessesRejectedWhileTraversing : Obligations.HostAccessesRejectedWhileTraversing := by
  refine fun v s => ⟨fun hs => ⟨fun off hoff => ?_, ?_⟩, fun hs => ⟨?_, ?_, ?_⟩⟩
  · obtain ⟨f, hf⟩ := regWrite_eq_guarded v s hoff
    exact hf.trans (guarded_traversing f hs)
  · rw [regRead_msgdata, readMsgdata_traversing hs]
    rfl
  · rw [regWrite_grid, guarded_resting _ hs]
  · rw [regWrite_msglen, guarded_resting _ hs]
  · rw [regWrite_msgaddr, guarded_resting _ hs]

/-! ### Side effects of accesses -/

theorem ofOffset_eq_cmd {off : Nat} (h : Reg.ofOffset off = .cmd) : off = 0 := by
  unfold Reg.ofOffset at h
  split at h
  case h_1 => rfl
  all_goals cases h

theorem ofOffset_eq_msgdata {off : Nat} (h : Reg.ofOffset off = .msgdata) : off = 0x14 := by
  unfold Reg.ofOffset at h
  split at h
  case h_6 => rfl
  all_goals cases h

/-- A guarded write of something idempotent that leaves STATE alone is idempotent, rejection included. -/
theorem guarded_idempotent {f : State → State} {s t : State} (hf : f (f s) = f s) (hstate : (f s).state = s.state)
    (h : guarded f s = .next t) : guarded f t = .next t := by
  rcases guarded_cases h with ⟨hs, rfl⟩ | ⟨hs, rfl⟩
  · exact guarded_traversing f hs
  · rw [guarded_resting f (by rwa [hstate]), hf]

theorem regWrite_idempotent {off : Nat} {v : Word} {s t : State} (hcmd : off ≠ 0) (hdata : off ≠ 0x14)
    (h : regWrite off v s = .next t) : regWrite off v t = .next t := by
  unfold regWrite at h ⊢
  split at h
  · next hr => exact absurd (ofOffset_eq_cmd hr) hcmd
  · exact guarded_idempotent rfl rfl h
  · exact guarded_idempotent rfl rfl h
  · exact guarded_idempotent rfl rfl h
  · next hr => exact absurd (ofOffset_eq_msgdata hr) hdata
  · rfl

/-- Settles O32: reads are views, and a write done again meets the same branch. -/
theorem onlyCmdAndMsgdataHaveSideEffects : Obligations.OnlyCmdAndMsgdataHaveSideEffects :=
  fun _ s hdata =>
    ⟨⟨_, regRead_view s (mt ofOffset_eq_msgdata hdata)⟩, fun hcmd _ _ h => regWrite_idempotent hcmd hdata h⟩

/-! ### Accesses the window takes -/

/-- Exactly the accesses of 20_memory R62 have an offset; a word of the window ends at BASE + 0xFC. -/
theorem accessOffset_ok_iff {c : Config} {addr bits off : Nat} :
    accessOffset c addr bits = .ok off ↔
      (bits = 32 ∧ c.base ≤ addr ∧ addr ≤ c.base + 0xFC ∧ (addr - c.base) % 4 = 0) ∧ off = addr - c.base := by
  constructor
  · intro h
    obtain ⟨hbits, hbase, hoff, hlast, halign⟩ := accessOffset_ok h
    exact ⟨⟨hbits, hbase, by omega, by omega⟩, hoff⟩
  · rintro ⟨⟨hbits, hbase, hlast, halign⟩, rfl⟩
    unfold accessOffset
    rw [if_neg (by omega), if_neg (by omega), if_neg (by omega)]

/-- Settles O33, from what `accessOffset` accepts. -/
theorem undefinedAccessesAreRefused : Obligations.UndefinedAccessesAreRefused := by
  refine fun addr bits v s => ⟨fun h => ?_, fun h => ?_⟩
  · have hoff := accessOffset_ok_iff.2 ⟨h, rfl⟩
    rw [busRead, busWrite, hoff]
    exact ⟨rfl, rfl⟩
  · rw [busRead, busWrite]
    cases hoff : accessOffset s.cfg addr bits with
    | ok off => exact absurd (accessOffset_ok_iff.1 hoff).1 h
    | error r => exact ⟨r, rfl, rfl⟩

/-! ### The host's own path to the image -/

/-- A pixel is its three channels, R first (20_memory R69). -/
theorem channels_append (p : Pixel) : channel 0 p ++ channel 1 p ++ channel 2 p = p := by
  change p.extractLsb' 16 8 ++ p.extractLsb' 8 8 ++ p.extractLsb' 0 8 = p
  rw [BitVec.extractLsb'_append_extractLsb'_eq_extractLsb' (show 16 = 8 + 8 from rfl),
    BitVec.extractLsb'_append_extractLsb'_eq_extractLsb' (show 8 = 0 + 8 from rfl)]
  exact BitVec.extractLsb'_eq_self

theorem pixel_setPixel_same (m : Image) (k : Nat) (p : Pixel) : (m.setPixel k p).pixel k = p := by
  simp [Image.pixel, byte_setPixel, channels_append]

theorem imageWrite_resting {x y : Nat} (p : Pixel) {s : State} (hx : x < s.image.width) (hy : y < s.image.height)
    (hs : s.state ≠ .traversing) :
    imageWrite x y p s = .next { s with image := s.image.setPixel (y * s.image.width + x) p } := by
  simp [imageWrite, hx, hy, hs]

theorem imageRead_current {x y : Nat} {s : State} (hx : x < s.image.width) (hy : y < s.image.height)
    (hs : ¬(s.state = .traversing ∧ s.opk = .embed)) :
    imageRead x y s = .next (hostTakesPixel (s.image.pixel (y * s.image.width + x)) s) := by
  rw [imageRead, if_pos ⟨hx, hy⟩, if_neg hs]

/-- Settles O60: a write replaces one pixel, and a read gives the current value unless an embed runs. -/
theorem hostImagePathReadsAndWrites : Obligations.HostImagePathReadsAndWrites := by
  refine fun x y p s hx hy => ⟨fun hs => ?_, fun hs => imageRead_current hx hy ?_⟩
  · exact ⟨_, imageWrite_resting p hx hy hs, rfl, rfl, pixel_setPixel_same _ _ p,
      fun l hl => pixel_setPixel_other _ p hl⟩
  · rintro ⟨htraversing, hembed⟩
    simp [htraversing, hembed] at hs

end Sys2Proof.Proofs
end

section
/-! PROOFS. The command word: the fields of `encode`'s word, what `decode` answers, and the bits a command reads
(30_encoding R91 to R98). Then the dispatch of a CMD write and the pseudo-instructions. -/

namespace Sys2Proof.Proofs

open Sys2Proof Sys2Proof.Machine Sys2Proof.Laws

/-! ### What the decoder answers -/

/-- The command with the operand that a word carries for it (30_encoding R93, R94). -/
def withOperand (w : Word) : Instr → Instr
  | .nop => .nop
  | .setup => .setup
  | .addcp _ => .addcp (cpField w)
  | .embed _ => .embed (policyField w)
  | .extract _ => .extract (policyField w)
  | .genStart _ => .genStart (policyField w)
  | .genNext => .genNext

/-- A word decodes to exactly the command whose opcode it has, with the operand it carries (30_encoding R92). -/
theorem decode_eq_ok_iff {w : Word} {i : Instr} : decode w = .ok i ↔ opField w = i.opcode ∧ withOperand w i = i := by
  constructor
  · intro h
    unfold decode at h
    split at h
    case h_8 => cases h
    all_goals
      next hop =>
        cases h
        exact ⟨BitVec.eq_of_toNat_eq hop, rfl⟩
  · rintro ⟨hop, hw⟩
    rw [← hw, decode, hop]
    cases i <;> rfl

theorem opcode_lt (i : Instr) : i.opcode.toNat < 7 := by
  cases i <;> simp [Instr.opcode]

/-- Opcodes 0 to 6 are the commands (30_encoding R96, R97). -/
theorem exists_decode_iff {w : Word} : (∃ i, decode w = .ok i) ↔ (opField w).toNat < 7 := by
  constructor
  · rintro ⟨i, h⟩
    rw [(decode_eq_ok_iff.1 h).1]
    exact opcode_lt i
  · intro h
    unfold decode
    split
    case h_8 => grind
    all_goals exact ⟨_, rfl⟩

/-! ### The encoder's word -/

theorem opField_encode {i : Instr} (h : i.wellFormed = true) : opField (encode i) = i.opcode := by
  have hfield : OpcodeField.Statement i := by
    cases i with
    | nop => exact OpcodeField.nop
    | setup => exact OpcodeField.setup
    | addcp cp => exact OpcodeField.addcp cp
    | embed p => exact OpcodeField.embed p
    | extract p => exact OpcodeField.extract p
    | genStart p => exact OpcodeField.genStart p
    | genNext => exact OpcodeField.genNext
  exact (hfield h).1

/-- Below bit 28 the opcode does not reach, so a field there reads the operand's bits. -/
theorem operandField_encode (i : Instr) {n : Nat} (hn : n ≤ 28) :
    (encode i).extractLsb' 0 n = i.operandBits.extractLsb' 0 n := by
  ext j hj
  have hlow : j < 28 := hj.trans_le hn
  simp [encode, hlow]

theorem cpField_encode_addcp {cp : Nat} (h : cp ≤ cpMax) : cpField (encode (.addcp cp)) = cp := by
  have hcp : cp < 2 ^ 21 := Nat.lt_succ_of_le h
  rw [cpField, operandField_encode _ (by decide)]
  change ((BitVec.ofNat 32 cp).extractLsb' 0 21).toNat = cp
  rw [BitVec.extractLsb'_toNat, BitVec.toNat_ofNat]
  omega

theorem policyField_policyBit (p : Policy) : policyField (policyBit p) = p := by
  cases p <;> rfl

theorem policyField_encode {i : Instr} {p : Policy} (h : i.operandBits = policyBit p) : policyField (encode i) = p := by
  have hbit : policyField (encode i) = policyField (policyBit p) := by
    rw [policyField, operandField_encode i (by decide), h]
    rfl
  rw [hbit, policyField_policyBit]

theorem withOperand_encode {i : Instr} (h : i.wellFormed = true) : withOperand (encode i) i = i := by
  cases i with
  | nop => rfl
  | setup => rfl
  | addcp cp => exact congrArg Instr.addcp (cpField_encode_addcp (of_decide_eq_true h))
  | embed p => exact congrArg Instr.embed (policyField_encode rfl)
  | extract p => exact congrArg Instr.extract (policyField_encode rfl)
  | genStart p => exact congrArg Instr.genStart (policyField_encode rfl)
  | genNext => rfl

/-- Settles O1: the encoder's word has the command's opcode and carries its operand. -/
theorem decodeInvertsEncode : Obligations.DecodeInvertsEncode :=
  fun _ h => decode_eq_ok_iff.2 ⟨opField_encode h, withOperand_encode h⟩

/-! ### The bits a command reads -/

/-- Masking all of a field but its own bits leaves the field in its place. -/
theorem and_fieldMask (w : Word) (start len : Nat) :
    w &&& (BitVec.allOnes len).setWidth 32 <<< start = (w.extractLsb' start len).setWidth 32 <<< start := by
  ext j hj
  by_cases hs : j < start
  · simp [hs]
  · simp [hs, hj, show start + (j - start) = j by omega, Bool.and_comm]

theorem and_opMask (w : Word) : w &&& (0xF0000000 : Word) = (opField w).setWidth 32 <<< 28 := and_fieldMask w 28 4

theorem and_cpMask (w : Word) : w &&& 0x1FFFFF = toWord (cpField w) := by
  rw [cpField, toWord, BitVec.ofNat_toNat]
  simpa using and_fieldMask w 0 21

theorem and_policyMask (w : Word) : w &&& 1 = policyBit (policyField w) := by
  have hbit : w &&& 1 = (w.extractLsb' 0 1).setWidth 32 := by simpa using and_fieldMask w 0 1
  rw [hbit, policyField]
  rcases BitVec.eq_zero_or_eq_one (w.extractLsb' 0 1) with h | h <;> rw [h] <;> rfl

/-- The operand bits that a command reads (30_encoding R95). -/
def operandMask : Instr → Word
  | .nop => 0
  | .setup => 0
  | .addcp _ => 0x1FFFFF
  | .embed _ => 1
  | .extract _ => 1
  | .genStart _ => 1
  | .genNext => 0

theorem usedMask_eq {w : Word} {i : Instr} (h : opField w = i.opcode) : usedMask w = 0xF0000000 ||| operandMask i := by
  rw [usedMask, h]
  cases i <;> simp only [Instr.opcode, operandMask] <;> decide

theorem operandBits_withOperand (w : Word) (i : Instr) : (withOperand w i).operandBits = w &&& operandMask i := by
  cases i with
  | nop => exact BitVec.and_zero.symm
  | setup => exact BitVec.and_zero.symm
  | addcp cp => exact (and_cpMask w).symm
  | embed p => exact (and_policyMask w).symm
  | extract p => exact (and_policyMask w).symm
  | genStart p => exact (and_policyMask w).symm
  | genNext => exact BitVec.and_zero.symm

theorem wellFormed_withOperand (w : Word) (i : Instr) : (withOperand w i).wellFormed = true := by
  cases i with
  | addcp cp => exact decide_eq_true (Nat.le_of_lt_succ (w.extractLsb' 0 21).isLt)
  | _ => rfl

/-- Settles O2: the mask is the opcode's bits and the operand's, and each half of the word is its field. -/
theorem encodeGivesBackUsedBits : Obligations.EncodeGivesBackUsedBits := by
  intro w i h
  obtain ⟨hop, hw⟩ := decode_eq_ok_iff.1 h
  have hbits : i.operandBits = w &&& operandMask i := by rw [← operandBits_withOperand, hw]
  refine ⟨hw ▸ wellFormed_withOperand w i, ?_⟩
  rw [usedMask_eq hop, BitVec.and_or_distrib_left, and_opMask, hop, ← hbits, encode]

theorem toNat_opField (w : Word) : (opField w).toNat = (w >>> 28).toNat := by
  have hlt := w.isLt
  rw [opField, BitVec.extractLsb'_toNat, BitVec.toNat_ushiftRight, Nat.shiftRight_eq_div_pow]
  omega

/-- Settles O3, from what the decoder answers. -/
theorem opcodeAloneSelectsCommand : Obligations.OpcodeAloneSelectsCommand := by
  refine fun w => ⟨?_, fun i h => ?_⟩
  · rw [exists_decode_iff, toNat_opField]
  · rw [← (decode_eq_ok_iff.1 h).1]
    exact and_opMask w

/-! ### Ignored bits -/

/-- The decoder reads cp for opcode 2, P for opcodes 3 to 5, and nothing else beside op (30_encoding R95). -/
theorem decode_congr {w v : Word} (hop : opField w = opField v) (hcp : opField w = 2 → cpField w = cpField v)
    (hpolicy : opField w = 3 ∨ opField w = 4 ∨ opField w = 5 → policyField w = policyField v) : decode w = decode v := by
  unfold decode
  rw [← hop]
  split
  case h_3 h => rw [hcp (BitVec.eq_of_toNat_eq h)]
  case h_4 h => rw [hpolicy (.inl (BitVec.eq_of_toNat_eq h))]
  case h_5 h => rw [hpolicy (.inr (.inl (BitVec.eq_of_toNat_eq h)))]
  case h_6 h => rw [hpolicy (.inr (.inr (BitVec.eq_of_toNat_eq h)))]
  all_goals rfl

theorem policyField_congr {w v : Word} (h : w.getLsbD 0 = v.getLsbD 0) : policyField w = policyField v := by
  have hbit : w.extractLsb' 0 1 = v.extractLsb' 0 1 := by
    ext j hj
    obtain rfl : j = 0 := Nat.lt_one_iff.1 hj
    rw [BitVec.getElem_extractLsb', BitVec.getElem_extractLsb', h]
  rw [policyField, policyField, hbit]

/-- Settles O4: equal used bits decode alike, and a CMD write looks at nothing but the decoder's answer. -/
theorem ignoredBitsHaveNoEffect : Obligations.IgnoredBitsHaveNoEffect := by
  intro w v hop hcp hpolicy
  have hd : decode w = decode v :=
    decode_congr hop (fun h => congrArg BitVec.toNat (hcp h)) fun h => policyField_congr (hpolicy h)
  exact ⟨hd, fun s => by rw [cmdWrite, cmdWrite, hd]⟩

/-! ### The dispatch of a CMD write -/

theorem cmdWrite_reserved {w : Word} (h : 7 ≤ (opField w).toNat) (s : State) : cmdWrite w s = .next (reject s) := by
  unfold cmdWrite
  split
  · next i hd => exact absurd (exists_decode_iff.1 ⟨i, hd⟩) (Nat.not_lt.2 h)
  · rfl

theorem cmdWrite_traversing (w : Word) {s : State} (hs : s.state = .traversing) : cmdWrite w s = .next (reject s) := by
  unfold cmdWrite
  split
  · exact exec_traversing hs
  · rfl

/-- Settles O7: a traversal and a reserved opcode reject; otherwise the word decodes and its command runs. -/
theorem cmdWriteIsDispatched : Obligations.CmdWriteIsDispatched := by
  refine fun w s => ⟨fun h => h.elim (cmdWrite_traversing w) (cmdWrite_reserved · s), fun h => ?_⟩
  obtain ⟨i, hd⟩ := exists_decode_iff.2 (Nat.lt_of_not_le (not_or.1 h).2)
  exact ⟨i, hd, (decode_eq_ok_iff.1 hd).1.symm, cmdWrite_decoded hd s⟩

/-- Settles O5, by evaluating the decoder on the listed words. -/
theorem commandWordsDecodeAsListed : Obligations.CommandWordsDecodeAsListed := by
  unfold Obligations.CommandWordsDecodeAsListed
  decide

/-! ### Pseudo-instructions -/

/-- Settles O34: each equation is the line's own expansion. -/
theorem pseudoInstructionsExpand : Obligations.PseudoInstructionsExpand :=
  fun _ _ _ _ _ _ _ => ⟨rfl, rfl, rfl, rfl, rfl⟩

end Sys2Proof.Proofs
end

section
/-! PROOFS. The prologue of an accepted command: it makes no difference to run it before the command, and what each
command's own rule leaves of it (40_control R111, R112; 60_exceptions R231). -/

namespace Sys2Proof.Proofs

open Sys2Proof Sys2Proof.Machine Sys2Proof.Laws

/-! ### A command is its prologue, then its own rule -/

/-- A command's own rule, after the prologue. -/
def commandBody : Instr → State → Result
  | .nop => .next
  | .setup => setupBody
  | .addcp cp => configured fun s => .next { s with seed := toWord ((s.seed.toNat + cp) % s.mod.toNat) }
  | .embed p => configured (embedBody p)
  | .extract p => configured fun s => .next (startExtract p s)
  | .genStart p => configured fun s => .next (genInit p s)
  | .genNext => configured genNextBody

theorem exec_eq_command (i : Instr) (s : State) : exec i s = command i.opcode (commandBody i) s := by
  cases i <;> rfl

theorem exec_accepted (i : Instr) {s : State} (hs : s.state ≠ .traversing) :
    exec i s = commandBody i (prologue i.opcode s) := by
  rw [exec_eq_command, command_accepted hs]

theorem prologue_prologue (op : BitVec 4) (s : State) : prologue op (prologue op s) = prologue op s := rfl

theorem exec_prologue (i : Instr) {s : State} (hs : s.state ≠ .traversing) : exec i s = exec i (prologue i.opcode s) := by
  rw [exec_accepted i hs, exec_accepted i (by simp), prologue_prologue]

/-! ### What an accepted command leaves of its prologue -/

/-- LASTOP and REJ are the prologue's; STATE and ERR are, unless a traversal has started or the command has failed. -/
def Accepted (op : BitVec 4) (t : State) : Prop :=
  t.lastop = op ∧ t.rej = false ∧ (t.err = .none → t.state = .idle ∨ t.state = .traversing) ∧
    (t.err ≠ .none → t.state = .failed)

theorem accepted_completed {op : BitVec 4} {t : State} (hop : t.lastop = op) (hrej : t.rej = false) (he : t.err = .none)
    (hs : t.state = .idle ∨ t.state = .traversing) : Accepted op t :=
  ⟨hop, hrej, fun _ => hs, absurd he⟩

theorem accepted_failWith {op : BitVec 4} {e : ErrCode} {u : State} (he : e ≠ .none) (hop : u.lastop = op)
    (hrej : u.rej = false) : Accepted op (failWith e u) :=
  ⟨hop, hrej, fun h => absurd h he, fun _ => rfl⟩

theorem accepted_configured {op : BitVec 4} {body : State → Result} {s t : State}
    (h : configured body (prologue op s) = .next t) (hbody : body (prologue op s) = .next t → Accepted op t) :
    Accepted op t := by
  rcases configured_cases h with ⟨-, hb⟩ | ⟨-, rfl⟩
  · exact hbody hb
  · exact accepted_failWith (by decide) rfl rfl

theorem accepted_setupBody {op : BitVec 4} {s t : State} (h : setupBody (prologue op s) = .next t) : Accepted op t := by
  unfold setupBody at h
  split at h
  · cases h; exact accepted_failWith (by decide) rfl rfl
  · cases h; exact accepted_completed rfl rfl rfl (.inl rfl)

theorem accepted_embedBody {op : BitVec 4} {p : Policy} {s t : State} (h : embedBody p (prologue op s) = .next t) :
    Accepted op t := by
  unfold embedBody at h
  split at h
  · cases h; exact accepted_failWith (by decide) rfl rfl
  · split at h
    · cases h; exact accepted_failWith (by decide) rfl rfl
    · cases h; exact accepted_completed rfl rfl rfl (.inr rfl)

theorem accepted_genNextBody {op : BitVec 4} {s t : State} (h : genNextBody (prologue op s) = .next t) :
    Accepted op t := by
  unfold genNextBody at h
  split at h
  · cases h; exact accepted_completed rfl rfl rfl (.inl rfl)
  · obtain ⟨-, h⟩ := emit_cases h
    cases h; exact accepted_completed rfl rfl rfl (.inl rfl)

theorem accepted_commandBody {i : Instr} {op : BitVec 4} {s t : State} (h : commandBody i (prologue op s) = .next t) :
    Accepted op t := by
  cases i with
  | nop => cases h; exact accepted_completed rfl rfl rfl (.inl rfl)
  | setup => exact accepted_setupBody h
  | addcp cp =>
    rw [commandBody] at h
    exact accepted_configured h fun hb => by cases hb; exact accepted_completed rfl rfl rfl (.inl rfl)
  | embed p => exact accepted_configured h accepted_embedBody
  | extract p =>
    rw [commandBody] at h
    exact accepted_configured h fun hb => by cases hb; exact accepted_completed rfl rfl rfl (.inr rfl)
  | genStart p =>
    rw [commandBody] at h
    exact accepted_configured h fun hb => by cases hb; exact accepted_completed rfl rfl rfl (.inl rfl)
  | genNext => exact accepted_configured h accepted_genNextBody

/-- Settles O8: the prologue run twice is the prologue, and each command's own rule keeps LASTOP and REJ, and raises a
failure with an error or none at all. -/
theorem acceptedCommandRunsPrologue : Obligations.AcceptedCommandRunsPrologue :=
  fun i _ hs => ⟨exec_prologue i hs, fun _ h => accepted_commandBody ((exec_accepted i hs).symm.trans h)⟩

/-- Settles O10: NOP's own rule is empty. -/
theorem nopRunsPrologueOnly : Obligations.NopRunsPrologueOnly :=
  fun _ => ⟨exec_accepted .nop, exec_traversing⟩

end Sys2Proof.Proofs
end

section
/-! PROOFS. The generator's parameters (41_sequence R121 to R126): the increment's search, the radical by trial division, the
multiplier. -/

namespace Sys2Proof.Proofs

open Sys2Proof Sys2Proof.Machine

/-! ### The increment -/

/-- The search ends at the first coprime candidate, if the bound lets it reach one. -/
theorem incrFrom_eq_first {m k : ℕ} (fuel c : ℕ) (hk : k < fuel) (hcop : Nat.gcd (c + 2 * k) m = 1) :
    ∃ j ≤ k, incrFrom m fuel c = c + 2 * j ∧ Nat.gcd (c + 2 * j) m = 1 ∧ ∀ i < j, Nat.gcd (c + 2 * i) m ≠ 1 := by
  induction fuel generalizing c k with
  | zero => exact absurd hk (Nat.not_lt_zero k)
  | succ fuel ih =>
    rw [incrFrom]
    split
    · next hc => exact ⟨0, Nat.zero_le k, rfl, hc, nofun⟩
    · next hc =>
      have shift (i : ℕ) : c + 2 + 2 * i = c + 2 * (i + 1) := by ring
      cases k with
      | zero => exact absurd hcop hc
      | succ k =>
        obtain ⟨j, hj, heq, hjcop, hfirst⟩ := ih (c + 2) (Nat.lt_of_succ_lt_succ hk) ((shift k).symm ▸ hcop)
        rw [shift j] at heq hjcop
        refine ⟨j + 1, Nat.succ_le_succ hj, heq, hjcop, fun i hi => ?_⟩
        cases i with
        | zero => exact hc
        | succ i => exact shift i ▸ hfirst i (Nat.lt_of_succ_lt_succ hi)

/-- The candidate the search starts from is m div 2 if that is odd, and the next number otherwise. -/
theorem or_one_eq (n : ℕ) : n ||| 1 = n + (n + 1) % 2 := by
  have hset (a : ℕ) : 2 * a ||| 1 = 2 * a + 1 := (Nat.two_pow_add_eq_or_of_lt (i := 1) (by decide) a).symm
  obtain ⟨k, rfl | rfl⟩ := n.even_or_odd'
  · rw [hset]
    omega
  · rw [← hset, Nat.or_assoc, Nat.or_self, hset]
    omega

/-- An odd number from m/2 on that is coprime to m: m − 1 for even m, m − 2 for odd m ≥ 3 (41_sequence R122). -/
theorem exists_odd_coprime {m : ℕ} (hm : 1 ≤ m) :
    ∃ n, n % 2 = 1 ∧ (m / 2 ||| 1) ≤ n ∧ n ≤ max 1 (m - 1) ∧ Nat.gcd n m = 1 := by
  rw [or_one_eq]
  obtain ⟨q, rfl | rfl⟩ := m.even_or_odd'
  · refine ⟨2 * q - 1, by omega, by omega, by omega, ?_⟩
    rw [show 2 * q = 2 * q - 1 + 1 by omega]
    simp
  obtain rfl | hq : q = 0 ∨ 1 ≤ q := by omega
  · exact ⟨1, by decide⟩
  · refine ⟨2 * q - 1, by omega, by omega, by omega, ?_⟩
    rw [show 2 * q + 1 = 2 * q - 1 + 2 by omega, Nat.gcd_self_add_right]
    exact Nat.coprime_two_right.2 (Nat.odd_iff.2 (by omega))

/-- What the search of R121 finds in m: its bound is not reached (log 19). -/
theorem incr_spec {m : ℕ} (hm : 1 ≤ m) :
    ∃ k, incr m = (m / 2 ||| 1) + 2 * k ∧ incr m ≤ max 1 (m - 1) ∧ Nat.gcd (incr m) m = 1 ∧
      ∀ j < k, Nat.gcd ((m / 2 ||| 1) + 2 * j) m ≠ 1 := by
  obtain ⟨n, hodd, hstart, hle, hcop⟩ := exists_odd_coprime hm
  have hparity := or_one_eq (m / 2)
  have hn : (m / 2 ||| 1) + 2 * ((n - (m / 2 ||| 1)) / 2) = n := by omega
  obtain ⟨j, hj, heq, hjcop, hfirst⟩ := incrFrom_eq_first m (m / 2 ||| 1) (by omega) (hn.symm ▸ hcop)
  have hincr : incr m = (m / 2 ||| 1) + 2 * j := heq
  exact ⟨j, hincr, by omega, hincr ▸ hjcop, hfirst⟩

theorem gcd_half_of_odd {m : ℕ} (h : m % 2 = 1) : Nat.gcd ((m - 1) / 2) m = 1 := by
  obtain ⟨q, rfl⟩ := Nat.odd_iff.2 h
  simp

/-- Settles O39, from what the search finds. -/
theorem incrementIsFirstCoprimeCandidate : Obligations.IncrementIsFirstCoprimeCandidate := by
  intro m hm
  obtain ⟨k, hincr, -, hcop, hfirst⟩ := incr_spec hm
  exact ⟨k, hincr, hcop, hfirst⟩

/-- Settles O40. The search starts at (m − 1)/2 for m ≡ 3 (mod 4), and ends there since an odd m is coprime to it; it
starts at m/2 or above otherwise. -/
theorem incrementProperties : Obligations.IncrementProperties := by
  intro m hm
  obtain ⟨k, hincr, hle, hcop, hfirst⟩ := incr_spec hm
  rw [or_one_eq] at hincr hfirst
  refine ⟨by omega, hcop, by omega, hle, ?_⟩
  split
  · next h =>
    have hstart : m / 2 + (m / 2 + 1) % 2 + 2 * 0 = (m - 1) / 2 := by omega
    have hk : k = 0 := Nat.eq_zero_of_not_pos fun hpos => hfirst 0 hpos (hstart ▸ h.2)
    omega
  · next h =>
    have hmod : m % 4 ≠ 3 := fun hmod => h ⟨hmod, gcd_half_of_odd (by omega)⟩
    omega

/-! ### The radical -/

/-- Repeated division leaves the part of n that p does not divide. -/
theorem stripFactor_eq_ordCompl {p : ℕ} (hp : p.Prime) (fuel n : ℕ) (hn : 1 ≤ n) (hfuel : n ≤ fuel) :
    stripFactor p fuel n = ordCompl[p] n := by
  induction fuel generalizing n with
  | zero => omega
  | succ fuel ih =>
    rw [stripFactor]
    split
    · next hdvd =>
      obtain ⟨k, rfl⟩ := Nat.dvd_of_mod_eq_zero hdvd
      have hk : 1 ≤ k := Nat.pos_of_mul_pos_left hn
      have hlt : k < p * k := lt_mul_of_one_lt_left hk hp.one_lt
      rw [Nat.mul_div_cancel_left k hp.pos, ih k hk (by omega)]
      simpa using (Nat.ordCompl_self_pow_mul k 1 hp).symm
    · next hdvd => rw [(Nat.ordCompl_eq_self_iff_zero_or_not_dvd n hp).2 (.inr (mt Nat.mod_eq_zero_of_dvd hdvd))]

theorem primeFactors_ordCompl (p n : ℕ) : (ordCompl[p] n).primeFactors = n.primeFactors.erase p := by
  rw [← Nat.support_factorization, Nat.factorization_ordCompl, Finsupp.support_erase, Nat.support_factorization]

/-- Trial division has reached p: no smaller number from 2 on divides n. -/
def NoFactorBelow (p n : ℕ) : Prop := ∀ q, q.Prime → q ∣ n → p ≤ q

theorem prod_primeFactors_of_lt_sq {p n : ℕ} (hn : 1 ≤ n) (hp : NoFactorBelow p n) (hlt : n < p * p) :
    ∏ q ∈ n.primeFactors, q = n := by
  obtain rfl | hn2 : n = 1 ∨ 2 ≤ n := by omega
  · simp
  have hprime : n.Prime := by
    by_contra hc
    have hsq := Nat.minFac_sq_le_self hn hc
    have hpq := hp n.minFac (Nat.minFac_prime (by omega)) n.minFac_dvd
    nlinarith
  simp [hprime.primeFactors]

theorem prime_of_noFactorBelow {p n : ℕ} (hp2 : 2 ≤ p) (hp : NoFactorBelow p n) (hdvd : p ∣ n) : p.Prime := by
  have hfirst := hp p.minFac (Nat.minFac_prime (by omega)) (p.minFac_dvd.trans hdvd)
  exact Nat.prime_def_minFac.2 ⟨hp2, le_antisymm (Nat.minFac_le (by omega)) hfirst⟩

theorem noFactorBelow_succ {p n k : ℕ} (h : NoFactorBelow p n) (hk : k ∣ n) (hp : ¬p ∣ k) : NoFactorBelow (p + 1) k :=
  fun q hq hqk => lt_of_le_of_ne (h q hq (hqk.trans hk)) fun heq => hp (heq ▸ hqk)

/-- The bound on the number of trials cuts nothing: the trials reach the square root of n first. -/
theorem radFrom_eq (fuel p n acc : ℕ) (hp2 : 2 ≤ p) (hn : 1 ≤ n) (hp : NoFactorBelow p n)
    (hfuel : n < (p + fuel) * (p + fuel)) : radFrom fuel p n acc = acc * ∏ q ∈ n.primeFactors, q := by
  induction fuel generalizing p n acc with
  | zero => rw [radFrom, prod_primeFactors_of_lt_sq hn hp hfuel]
  | succ fuel ih =>
    rw [radFrom]
    rw [← add_assoc, add_right_comm] at hfuel
    split
    · next hlt => rw [prod_primeFactors_of_lt_sq hn hp hlt]
    split
    · next hdvd =>
      have hdvd' := Nat.dvd_of_mod_eq_zero hdvd
      have hprime := prime_of_noFactorBelow hp2 hp hdvd'
      have hn0 : n ≠ 0 := by omega
      have hrest := noFactorBelow_succ hp (Nat.ordCompl_dvd n p) (Nat.not_dvd_ordCompl hprime hn0)
      rw [stripFactor_eq_ordCompl hprime n n hn le_rfl,
        ih (p + 1) _ _ (by omega) (Nat.ordCompl_pos p hn0) hrest ((Nat.ordCompl_le n p).trans_lt hfuel),
        primeFactors_ordCompl, mul_assoc, Finset.mul_prod_erase _ (fun q => q) (hprime.mem_primeFactors hdvd' hn0)]
    · next hdvd =>
      have hrest := noFactorBelow_succ hp dvd_rfl (mt Nat.mod_eq_zero_of_dvd hdvd)
      exact ih (p + 1) n acc (by omega) hn hrest hfuel

theorem rad_eq_prod_primeFactors {m : ℕ} (hm : 1 ≤ m) : rad m = ∏ p ∈ m.primeFactors, p := by
  rw [rad, radFrom_eq m 2 m 1 le_rfl hm (fun q hq _ => hq.two_le) (by nlinarith), one_mul]

/-- Settles O41, from what trial division computes when it starts at 2. -/
theorem radicalIsProductOfDistinctPrimes : Obligations.RadicalIsProductOfDistinctPrimes := fun _ => rad_eq_prod_primeFactors

theorem rad_dvd {m : ℕ} (hm : 1 ≤ m) : rad m ∣ m := by
  rw [rad_eq_prod_primeFactors hm]
  exact m.prod_primeFactors_dvd

theorem dvd_rad {m p : ℕ} (hm : 1 ≤ m) (hp : p.Prime) (hdvd : p ∣ m) : p ∣ rad m := by
  rw [rad_eq_prod_primeFactors hm]
  exact Finset.dvd_prod_of_mem id (hp.mem_primeFactors hdvd (by omega))

theorem rad_of_squarefree {m : ℕ} (hm : 1 ≤ m) (h : Squarefree m) : rad m = m := by
  rw [rad_eq_prod_primeFactors hm, Nat.prod_primeFactors_of_squarefree h]

/-! ### The multiplier -/

/-- A divisor of m that lacks a factor 2 of m's can be doubled. -/
theorem two_mul_dvd_of_dvd {r m : ℕ} (h : r ∣ m) (h4 : 4 ∣ m) (hr : ¬4 ∣ r) : 2 * r ∣ m := by
  obtain ⟨k, rfl⟩ := h
  have h2k : 2 ∣ k := by
    by_contra hodd
    have hcop : Nat.Coprime (2 ^ 2) k := (Nat.prime_two.coprime_iff_not_dvd.2 hodd).pow_left 2
    exact hr (hcop.dvd_of_dvd_mul_right h4)
  rw [mul_comm]
  exact mul_dvd_mul_left r h2k

/-- mult(m) − 1 lies between rad(m) and m in divisibility, with the factor 4 that m has (41_sequence R124). -/
theorem mult_spec {m : ℕ} (hm : 1 ≤ m) : ∃ d, mult m = d + 1 ∧ rad m ∣ d ∧ d ∣ m ∧ (4 ∣ m → 4 ∣ d) := by
  have hrad := rad_dvd hm
  unfold mult
  dsimp only
  split
  · next h =>
    obtain ⟨h4, hr4⟩ := h
    have hdvd := two_mul_dvd_of_dvd hrad (Nat.dvd_of_mod_eq_zero h4) (mt Nat.mod_eq_zero_of_dvd hr4)
    refine ⟨2 * rad m, rfl, dvd_mul_left _ _, hdvd, fun h4m => ?_⟩
    exact mul_dvd_mul_left 2 (dvd_rad hm Nat.prime_two ((by decide : 2 ∣ 4).trans h4m))
  · next h =>
    refine ⟨rad m, rfl, dvd_rfl, hrad, fun h4m => ?_⟩
    omega

/-- Settles O42: d = mult(m) − 1 divides m, and for squarefree m it is a multiple of rad(m) = m. -/
theorem multiplierBounds : Obligations.MultiplierBounds := by
  intro m hm
  obtain ⟨d, hmult, hrad, hdvd, -⟩ := mult_spec hm
  have hpos := Nat.pos_of_dvd_of_pos hdvd hm
  have hle := Nat.le_of_dvd hm hdvd
  refine ⟨by omega, by omega, fun hsq => ?_⟩
  have hd : d = m := Nat.dvd_antisymm hdvd (rad_of_squarefree hm hsq ▸ hrad)
  rw [hmult, hd]
  refine ⟨rfl, fun c v => ?_⟩
  rw [lcgNext, show (m + 1) * v + c = v + c + m * v by ring, Nat.add_mul_mod_self_left]

/-- Refutes O43: m = 4 is not squarefree, and its multiplier is 5 (95_test_vectors X-GEN1). -/
theorem not_multiplierIsSuccessorExactlyWhenSquarefree : ¬ Obligations.MultiplierIsSuccessorExactlyWhenSquarefree := by
  intro h
  have hsq : Squarefree 4 := (h 4 (by decide)).1 (by decide)
  exact absurd (Nat.isUnit_iff.1 (hsq 2 (by decide))) (by decide)

/-- Settles O44: every prime of m divides rad(m), which divides mult(m) − 1. -/
theorem hullDobellConditionsHold : Obligations.HullDobellConditionsHold := by
  intro m hm
  obtain ⟨-, -, -, hcop, -⟩ := incr_spec hm
  obtain ⟨d, hmult, hrad, -, h4⟩ := mult_spec hm
  rw [hmult, Nat.add_sub_cancel]
  exact ⟨hcop, fun p hp hpm => (dvd_rad hm hp hpm).trans hrad, h4⟩

end Sys2Proof.Proofs
end

section
/-! PROOFS. The Hull–Dobell theorem: a linear congruential step whose parameters meet the three conditions of 41_sequence
R126 has one cycle, through all residues. -/

namespace Sys2Proof.Proofs

open Sys2Proof Sys2Proof.Machine Finset

/-- The Hull–Dobell conditions on multiplier, increment and modulus (41_sequence R126). -/
structure HullDobell (a c m : ℕ) : Prop where
  coprime : Nat.Coprime c m
  primes : ∀ p : ℕ, p.Prime → p ∣ m → (p : ℤ) ∣ a - 1
  four : 4 ∣ m → (4 : ℤ) ∣ a - 1

/-! ### Divisors of 1 + a + … + a^(n−1) -/

theorem dvd_geomSum_iff_of_dvd_sub_one {a p : ℤ} (h : p ∣ a - 1) (n : ℕ) : p ∣ ∑ i ∈ range n, a ^ i ↔ p ∣ n := by
  simpa using dvd_geom_sum₂_iff_of_dvd_sub (n := n) h

/-- Lifting the exponent: the geometric sum has exactly the powers of p that its number of terms has. -/
theorem emultiplicity_geomSum {a : ℤ} {p : ℕ} (hp : p.Prime) (h : (p : ℤ) ∣ a - 1) (h4 : p = 2 → 4 ∣ a - 1) (n : ℕ) :
    emultiplicity (p : ℤ) (∑ i ∈ range n, a ^ i) = emultiplicity (p : ℤ) n := by
  by_cases ha : a = 1
  · simp [ha]
  have hp' := Nat.prime_iff_prime_int.1 hp
  have hpa : ¬(p : ℤ) ∣ a := fun hd => hp'.not_dvd_one ((dvd_sub_right hd).1 h)
  have hlift : emultiplicity (p : ℤ) (a ^ n - 1) = emultiplicity (p : ℤ) (a - 1) + emultiplicity (p : ℤ) n := by
    rcases hp.eq_two_or_odd' with rfl | hodd
    · simpa using Int.two_pow_sub_pow' n (h4 rfl) hpa
    · simpa [Int.natCast_emultiplicity] using Int.emultiplicity_pow_sub_pow hp hodd (y := 1) h hpa n
  have hfin : FiniteMultiplicity (p : ℤ) (a - 1) := Int.finiteMultiplicity_iff.2 ⟨hp.ne_one, sub_ne_zero.2 ha⟩
  rw [← mul_geom_sum, emultiplicity_mul hp'] at hlift
  exact WithTop.add_left_cancel (finiteMultiplicity_iff_emultiplicity_ne_top.1 hfin) hlift

theorem prime_pow_dvd_geomSum_iff {a c m p k : ℕ} (h : HullDobell a c m) (hp : p.Prime) (hk : p ^ k ∣ m) (n : ℕ) :
    p ^ k ∣ ∑ i ∈ range n, a ^ i ↔ p ^ k ∣ n := by
  rw [← Int.natCast_dvd_natCast, ← Int.natCast_dvd_natCast]
  push_cast
  obtain rfl | rfl | hk2 : k = 0 ∨ k = 1 ∨ 2 ≤ k := by omega
  · simp
  · rw [pow_one] at hk ⊢
    exact dvd_geomSum_iff_of_dvd_sub_one (h.primes p hp hk) n
  · have hpm : p ∣ m := (dvd_pow_self p (by omega)).trans hk
    have h4 : p = 2 → (4 : ℤ) ∣ a - 1 := fun h2 => h.four ((pow_dvd_pow 2 hk2).trans (h2 ▸ hk))
    rw [pow_dvd_iff_le_emultiplicity, emultiplicity_geomSum hp (h.primes p hp hpm) h4,
      ← pow_dvd_iff_le_emultiplicity]

theorem dvd_geomSum_iff {a c m : ℕ} (h : HullDobell a c m) (n : ℕ) : m ∣ ∑ i ∈ range n, a ^ i ↔ m ∣ n := by
  rw [Nat.dvd_iff_prime_pow_dvd_dvd, Nat.dvd_iff_prime_pow_dvd_dvd]
  exact forall₄_congr fun p k hp hk => prime_pow_dvd_geomSum_iff h hp hk n

/-! ### The cycle -/

theorem lcgNext_lt {m : ℕ} (a c v : ℕ) (hm : 1 ≤ m) : lcgNext a c m v < m := Nat.mod_lt _ hm

theorem iterate_lcgNext_lt {m v : ℕ} (a c n : ℕ) (hv : v < m) : (lcgNext a c m)^[n] v < m := by
  cases n with
  | zero => exact hv
  | succ n =>
    rw [Function.iterate_succ_apply']
    exact lcgNext_lt a c _ (Nat.zero_lt_of_lt hv)

/-- n steps move the state by a multiple of the geometric sum. -/
theorem iterate_lcgNext_modEq (a c m v n : ℕ) :
    ((lcgNext a c m)^[n] v : ℤ) ≡ v + (∑ i ∈ range n, (a : ℤ) ^ i) * ((a - 1) * v + c) [ZMOD m] := by
  induction n with
  | zero => simp
  | succ n ih =>
    rw [Function.iterate_succ_apply', geom_sum_succ]
    calc ((lcgNext a c m ((lcgNext a c m)^[n] v) : ℕ) : ℤ)
        ≡ a * (lcgNext a c m)^[n] v + c [ZMOD m] := by simp [lcgNext, Int.ModEq]
      _ ≡ a * (v + (∑ i ∈ range n, (a : ℤ) ^ i) * ((a - 1) * v + c)) + c [ZMOD m] := (ih.mul_left _).add_right _
      _ = v + (a * ∑ i ∈ range n, (a : ℤ) ^ i + 1) * ((a - 1) * v + c) := by ring

/-- The factor beside the geometric sum is no obstacle: a prime of m divides a − 1 and not c. -/
theorem isCoprime_displacement {a c m : ℕ} (h : HullDobell a c m) (v : ℕ) :
    IsCoprime (m : ℤ) ((a - 1) * v + c) := by
  rw [Int.isCoprime_iff_gcd_eq_one, Int.gcd_eq_natAbs]
  refine Nat.Coprime.symm <| Nat.coprime_of_dvd fun p hp hd hpm => ?_
  have hpc : (p : ℤ) ∣ c := (dvd_add_right ((h.primes p hp hpm).mul_right _)).1 (Int.natCast_dvd.2 hd)
  exact Nat.not_coprime_of_dvd_of_dvd hp.one_lt (Int.natCast_dvd_natCast.1 hpc) hpm h.coprime

theorem isPeriodicPt_lcgNext_iff {a c m v : ℕ} (h : HullDobell a c m) (hv : v < m) (n : ℕ) :
    Function.IsPeriodicPt (lcgNext a c m) n v ↔ m ∣ n := by
  have hmove := iterate_lcgNext_modEq a c m v n
  calc Function.IsPeriodicPt (lcgNext a c m) n v
      ↔ (lcgNext a c m)^[n] v ≡ v [MOD m] :=
        ⟨fun heq => congrArg (· % m) heq, fun hmod => hmod.eq_of_lt_of_lt (iterate_lcgNext_lt a c n hv) hv⟩
    _ ↔ (v : ℤ) ≡ v + (∑ i ∈ range n, (a : ℤ) ^ i) * ((a - 1) * v + c) [ZMOD m] := by
        rw [← Int.natCast_modEq_iff]
        exact ⟨fun hback => hback.symm.trans hmove, fun hstay => hmove.trans hstay.symm⟩
    _ ↔ (m : ℤ) ∣ (∑ i ∈ range n, (a : ℤ) ^ i) * ((a - 1) * v + c) := by rw [Int.modEq_iff_dvd, add_sub_cancel_left]
    _ ↔ (m : ℤ) ∣ ∑ i ∈ range n, (a : ℤ) ^ i :=
        ⟨(isCoprime_displacement h v).dvd_of_dvd_mul_right, fun hd => hd.mul_right _⟩
    _ ↔ m ∣ n := by rw [← dvd_geomSum_iff h n, ← Int.natCast_dvd_natCast]; push_cast; rfl

/-- The Hull–Dobell theorem: the period is the modulus. -/
theorem minimalPeriod_lcgNext {a c m v : ℕ} (h : HullDobell a c m) (hv : v < m) :
    Function.minimalPeriod (lcgNext a c m) v = m :=
  Nat.dvd_antisymm ((isPeriodicPt_lcgNext_iff h hv m).2 dvd_rfl).minimalPeriod_dvd
    ((isPeriodicPt_lcgNext_iff h hv _).1 (Function.isPeriodicPt_minimalPeriod _ _))

/-- One period runs through every residue once. -/
theorem iterate_lcgNext_perm_range {a c m v : ℕ} (h : HullDobell a c m) (hv : v < m) :
    (List.iterate (lcgNext a c m) v m).Perm (List.range m) := by
  have hinj := Function.iterate_injOn_Iio_minimalPeriod (f := lcgNext a c m) (x := v)
  rw [minimalPeriod_lcgNext h hv] at hinj
  have hnodup : (List.iterate (lcgNext a c m) v m).Nodup := by
    rw [← List.range_map_iterate]
    exact List.nodup_range.map_on fun i hi j hj => hinj (List.mem_range.1 hi) (List.mem_range.1 hj)
  have hsub : List.iterate (lcgNext a c m) v m ⊆ List.range m := by
    intro x hx
    obtain ⟨n, -, rfl⟩ := List.mem_iterate.1 hx
    exact List.mem_range.2 (iterate_lcgNext_lt a c n hv)
  exact (hnodup.subperm hsub).perm_of_length_le (by simp)

end Sys2Proof.Proofs
end

section
/-! PROOFS. The sequence of emissions (41_sequence R128 to R136): the values are the iterates of the next-state function, which
under either policy is a linear congruential step that meets the Hull–Dobell conditions. -/

namespace Sys2Proof.Proofs

open Sys2Proof Sys2Proof.Machine Sys2Proof.Laws

/-! ### Emissions as iterates -/

theorem toNat_advance_lcgs {s : State} (hm : 1 ≤ s.mod.toNat) : (advance s).lcgs.toNat = nextOf s s.lcgs.toNat :=
  toNat_toWord ((nextOf_lt s s.lcgs.toNat hm).trans s.mod.isLt)

theorem nextOf_advance (s : State) : nextOf (advance s) = nextOf s := rfl

theorem iterate_advance_wl (n : ℕ) (s : State) : (advance^[n] s).wl = s.wl := by
  induction n generalizing s with
  | zero => rfl
  | succ n ih => exact ih (advance s)

theorem toNat_iterate_advance_lcgs {s : State} (hm : 1 ≤ s.mod.toNat) (n : ℕ) :
    (advance^[n] s).lcgs.toNat = (nextOf s)^[n] s.lcgs.toNat := by
  induction n generalizing s with
  | zero => rfl
  | succ n ih =>
    have hrest := ih (s := advance s) hm
    rwa [nextOf_advance, toNat_advance_lcgs hm] at hrest

theorem emissions_eq_iterate {s : State} (hm : 1 ≤ s.mod.toNat) (n : ℕ) :
    emissions n s = List.iterate (nextOf s) s.lcgs.toNat n := by
  induction n generalizing s with
  | zero => rfl
  | succ n ih =>
    have hrest := ih (s := advance s) hm
    rw [nextOf_advance, toNat_advance_lcgs hm] at hrest
    rw [emissions, hrest, List.iterate]

/-! ### The raster policy -/

theorem nextOf_raster {s : State} (h : s.policy = .raster) : nextOf s = rasterNext s.mod.toNat := by
  funext v
  rw [nextOf, h]

/-- The raster policy's step is the linear congruential one with a = c = 1 (41_sequence R129). -/
theorem rasterNext_eq_lcgNext (m : ℕ) : rasterNext m = lcgNext 1 1 m := by
  funext v
  rw [rasterNext, lcgNext, one_mul]

theorem iterate_rasterNext_zero {m n : ℕ} (h : n < m) : (rasterNext m)^[n] 0 = n := by
  induction n with
  | zero => rfl
  | succ n ih => rw [Function.iterate_succ_apply', ih (by omega), rasterNext, Nat.mod_eq_of_lt h]

/-- Settles O47: the n-th iterate of the raster step from 0 is n, and a coordinate is that of the iterate. -/
theorem rasterOrderIsRowMajor : Obligations.RasterOrderIsRowMajor := by
  intro s hp h0
  have hvalue (n : ℕ) (hn : n < s.mod.toNat) : (nextOf s)^[n] s.lcgs.toNat = n := by
    rw [nextOf_raster hp, h0]
    exact iterate_rasterNext_zero hn
  constructor
  · obtain hm | hm : s.mod.toNat = 0 ∨ 1 ≤ s.mod.toNat := by omega
    · rw [hm]
      rfl
    · rw [emissions_eq_iterate hm, ← List.range_map_iterate]
      exact (List.map_congr_left fun n hn => hvalue n (List.mem_range.1 hn)).trans (List.map_id' _)
  · intro n hn
    rw [coordX, coordY, iterate_advance_wl, toNat_iterate_advance_lcgs (by omega), hvalue n hn]
    exact ⟨rfl, rfl⟩

/-! ### Either policy -/

theorem hullDobell_one (m : ℕ) : HullDobell 1 1 m := ⟨Nat.coprime_one_left m, by simp, by simp⟩

theorem hullDobell_parameters {m : ℕ} (hm : 1 ≤ m) : HullDobell (mult m) (incr m) m := by
  obtain ⟨hcop, hprimes, h4⟩ := hullDobellConditionsHold m hm
  obtain ⟨hmult, -⟩ := multiplierBounds m hm
  have hcast : ((mult m - 1 : ℕ) : ℤ) = mult m - 1 := Nat.cast_pred (by omega)
  refine ⟨hcop, fun p hp hpm => ?_, fun h => ?_⟩
  · rw [← hcast, Int.natCast_dvd_natCast]
    exact hprimes p hp hpm
  · rw [← hcast]
    exact Int.natCast_dvd_natCast.2 (h4 h)

theorem incr_le {m : ℕ} (hm : 1 ≤ m) : incr m ≤ m := by
  obtain ⟨-, -, -, hle, -⟩ := incrementProperties m hm
  omega

/-- The registers hold the parameters themselves, not remainders (41_sequence R120, R122, R125). -/
theorem toNat_parameters {m : ℕ} (hm : 1 ≤ m) (hlt : m + 1 < 2 ^ 32) :
    (toWord (incr m)).toNat = incr m ∧ (toWord (mult m)).toNat = mult m := by
  obtain ⟨-, hmult, -⟩ := multiplierBounds m hm
  have hincr := incr_le hm
  exact ⟨toNat_toWord (by omega), toNat_toWord (by omega)⟩

theorem grid_product_le (w h : BitVec 16) : w.toNat * h.toNat ≤ modMax :=
  Nat.mul_le_mul (Nat.le_of_lt_succ w.isLt) (Nat.le_of_lt_succ h.isLt)

theorem mod_succ_lt {s : State} (h : Inv s) (hc : s.cfgok = true) : s.mod.toNat + 1 < 2 ^ 32 := by
  obtain ⟨hmod, -⟩ := h.configured hc
  have hle := grid_product_le s.wl s.hl
  rw [modMax] at hle
  omega

/-- In a valid configuration the next state is a Hull–Dobell step, whatever the policy. -/
theorem nextOf_eq_lcgNext {s : State} (h : Inv s) (hc : s.cfgok = true) :
    ∃ a c, nextOf s = lcgNext a c s.mod.toNat ∧ HullDobell a c s.mod.toNat := by
  obtain ⟨-, hm, -⟩ := h.configured hc
  cases hp : s.policy with
  | raster => exact ⟨1, 1, (nextOf_raster hp).trans (rasterNext_eq_lcgNext _), hullDobell_one _⟩
  | lcg =>
    obtain ⟨hinc, hmult⟩ := h.parameters hc
    obtain ⟨hinc', hmult'⟩ := toNat_parameters hm (mod_succ_lt h hc)
    refine ⟨mult s.mod.toNat, incr s.mod.toNat, ?_, hullDobell_parameters hm⟩
    funext v
    rw [nextOf, hp, hinc, hmult, hinc', hmult']

theorem emissions_perm_range {s : State} (h : Inv s) (hc : s.cfgok = true) :
    (emissions s.mod.toNat s).Perm (List.range s.mod.toNat) := by
  obtain ⟨-, hm, hlcgs, -⟩ := h.configured hc
  obtain ⟨a, c, hnext, hhd⟩ := nextOf_eq_lcgNext h hc
  rw [emissions_eq_iterate hm, hnext]
  exact iterate_lcgNext_perm_range hhd hlcgs

/-- Settles O46: MOD is a period of the Hull–Dobell step. -/
theorem sequenceReturnsToStart : Obligations.SequenceReturnsToStart := by
  intro s h hc
  obtain ⟨-, hm, hlcgs, -⟩ := h.configured hc
  obtain ⟨a, c, hnext, hhd⟩ := nextOf_eq_lcgNext h hc
  apply BitVec.eq_of_toNat_eq
  rw [toNat_iterate_advance_lcgs hm, hnext]
  exact (isPeriodicPt_lcgNext_iff hhd hlcgs _).2 dvd_rfl

/-! ### Coordinates -/

/-- The mapper: column and row of a state value (41_sequence R132). -/
def cellOf (w v : ℕ) : ℕ × ℕ := (v % w, v / w)

theorem cellOf_injective (w : ℕ) : Function.Injective (cellOf w) := by
  intro u v h
  obtain ⟨hx, hy⟩ := Prod.mk.inj h
  rw [← Nat.div_add_mod u w, hx, hy, Nat.div_add_mod]

theorem cellOf_index {w x : ℕ} (hx : x < w) (y : ℕ) : cellOf w (y * w + x) = (x, y) := by
  have hw := Nat.zero_lt_of_lt hx
  simp [cellOf, Nat.mod_eq_of_lt hx, Nat.add_div_of_dvd_right, Nat.div_eq_of_lt hx, hw]

/-- The residues below w·h meet every cell of the grid once. -/
theorem count_cellOf_range {w h x y : ℕ} (hx : x < w) (hy : y < h) :
    ((List.range (w * h)).map (cellOf w)).count (x, y) = 1 := by
  refine List.count_eq_one_of_mem (List.nodup_range.map (cellOf_injective w)) (List.mem_map.2 ?_)
  exact ⟨y * w + x, List.mem_range.2 (index_lt hx hy), cellOf_index hx y⟩

/-- Settles O45: the emissions are the residues in another order, by the Hull–Dobell theorem, so they meet the cells that the
residues meet. -/
theorem sequenceIsPermutation : Obligations.SequenceIsPermutation := by
  intro s h hc
  have hperm := emissions_perm_range h hc
  obtain ⟨hmod, -⟩ := h.configured hc
  refine ⟨hperm, fun x hx y hy => ?_⟩
  rw [(hperm.map _).count_eq, hmod]
  exact count_cellOf_range hx hy

/-- Settles O48: the mapper is division with remainder by WL. -/
theorem mapperStaysInGrid : Obligations.MapperStaysInGrid := by
  intro s h hc
  obtain ⟨hgen, -⟩ := sound_of_inv h
  obtain ⟨hx, hy⟩ := coord_in_grid hgen hc
  exact ⟨hx, hy, linearIndex_coord s⟩

end Sys2Proof.Proofs
end

section
/-! PROOFS. The generator's commands: SETUP, ADDCP, GEN_START and GEN_NEXT (41_sequence R138 to R141). -/

namespace Sys2Proof.Proofs

open Sys2Proof Sys2Proof.Machine Sys2Proof.Laws

/-! ### SETUP -/

theorem setupBody_valid {s : State} (hw : gridW s.grid ≠ 0) (hh : gridH s.grid ≠ 0) :
    setupBody s = .next (latchGrid (gridW s.grid) (gridH s.grid) (clearGenerator s)) :=
  if_neg (not_or.2 ⟨hw, hh⟩)

theorem setupBody_zero {s : State} (h : gridW s.grid = 0 ∨ gridH s.grid = 0) :
    setupBody s = .next (failWith .invalidGrid (clearConfig (clearGenerator s))) := if_pos h

theorem exec_setup {s : State} (hs : s.state ≠ .traversing) : exec .setup s = setupBody (prologue 1 s) :=
  exec_accepted .setup hs

/-- Settles O11: after the prologue the grid is latched. -/
theorem setupLatchesValidGrid : Obligations.SetupLatchesValidGrid :=
  fun _ hs hw hh => ⟨_, (exec_setup hs).trans (setupBody_valid hw hh)⟩

/-- Settles O12: after the prologue the configuration is cleared and INVALID_GRID raised. -/
theorem setupRefusesZeroGrid : Obligations.SetupRefusesZeroGrid :=
  fun _ hs hgrid => ⟨_, (exec_setup hs).trans (setupBody_zero hgrid)⟩

/-- Settles O13: only a latched grid leaves CFGOK 1, and its parameters fit 32 bits. -/
theorem setupStoresExactParameters : Obligations.SetupStoresExactParameters := by
  intro s t hs hexec hc
  by_cases hgrid : gridW s.grid = 0 ∨ gridH s.grid = 0
  · obtain ⟨b, hzero⟩ := setupRefusesZeroGrid s hs hgrid
    cases hzero.symm.trans hexec
    cases hc
  · obtain ⟨hw, hh⟩ := not_or.1 hgrid
    obtain ⟨b, hvalid⟩ := setupLatchesValidGrid s hs hw hh
    cases hvalid.symm.trans hexec
    obtain ⟨hm, hlt⟩ := grid_product_bounds hw hh
    have hmax := grid_product_le (gridW s.grid) (gridH s.grid)
    obtain ⟨hincr, hmult⟩ := toNat_parameters hm ((Nat.succ_le_succ hmax).trans_lt (by decide))
    exact ⟨hm, hmax, toNat_toWord hlt, hincr, hmult⟩

/-! ### ADDCP -/

theorem exec_addcp (cp : ℕ) {s : State} (hs : s.state ≠ .traversing) (hc : s.cfgok = true) :
    exec (.addcp cp) s = .next { prologue 2 s with seed := toWord ((s.seed.toNat + cp) % s.mod.toNat) } := by
  rw [exec_accepted (.addcp cp) hs, commandBody]
  exact configured_yes hc

/-- Settles O15: the prologue, the check of the configuration, the addition. -/
theorem addcpAddsCodePointModuloMod : Obligations.AddcpAddsCodePointModuloMod := fun cp _ hs hc => exec_addcp cp hs hc

theorem execAll_cons {i : Instr} {is : List Instr} {s t : State} (h : exec i s = .next t) :
    execAll (i :: is) s = execAll is t := by
  rw [execAll, h]

/-- Settles O16, by induction on the code points: each ADDCP keeps the running sum reduced. -/
theorem seedIsSumOfCodePoints : Obligations.SeedIsSumOfCodePoints := by
  intro cps
  induction cps with
  | nil => exact fun s _ _ _ hlt => ⟨s, rfl, (Nat.mod_eq_of_lt hlt).symm, rfl⟩
  | cons cp cps ih =>
    intro s hs hc hm hlt
    have hsum : (s.seed.toNat + cp) % s.mod.toNat < s.mod.toNat := Nat.mod_lt _ hm
    have hseed := toNat_toWord (hsum.trans s.mod.isLt)
    obtain ⟨t, hall, htseed, htmod⟩ := ih
      { prologue 2 s with seed := toWord ((s.seed.toNat + cp) % s.mod.toNat) } nofun hc hm (hseed.trans_lt hsum)
    refine ⟨t, (execAll_cons (exec_addcp cp hs hc)).trans hall, ?_, htmod⟩
    rw [htseed, hseed, prologue_mod, Nat.mod_add_mod, List.sum_cons, add_assoc]

/-! ### GEN_START and GEN_NEXT -/

theorem exec_genStart (p : Policy) {s : State} (hs : s.state ≠ .traversing) (hc : s.cfgok = true) :
    exec (.genStart p) s = .next (genInit p (prologue 5 s)) := by
  rw [exec_accepted (.genStart p) hs, commandBody]
  exact configured_yes hc

/-- Settles O17: the initialisation under each policy. -/
theorem genStartInitialisesGenerator : Obligations.GenStartInitialisesGenerator :=
  fun _ hs hc => ⟨exec_genStart .raster hs hc, exec_genStart .lcg hs hc⟩

theorem exec_genNext {s : State} (hs : s.state ≠ .traversing) (hc : s.cfgok = true) :
    exec .genNext s = genNextBody (prologue 6 s) :=
  (exec_accepted .genNext hs).trans (configured_yes hc)

theorem genNextBody_end {s : State} (h : s.count = s.mod) : genNextBody s = .next { s with cvalid := false } := if_pos h

theorem genNextBody_emits {s : State} (h : s.count.toNat < s.mod.toNat) : genNextBody s = .next (advance s) := by
  rw [genNextBody, if_neg fun heq => h.ne (congrArg BitVec.toNat heq), emit_next h]

theorem nextOf_eq_ite (s : State) (v : ℕ) :
    nextOf s v = if s.policy = .lcg then (s.mult.toNat * v + s.inc.toNat) % s.mod.toNat else (v + 1) % s.mod.toNat := by
  cases hp : s.policy <;> rw [nextOf, hp] <;> rfl

/-- Settles O18: one emission while N < MOD, and the end at N = MOD. -/
theorem genNextTakesOneValue : Obligations.GenNextTakesOneValue := by
  refine fun s hs hc => ⟨fun hlt => ?_, fun hend => (exec_genNext hs hc).trans (genNextBody_end hend)⟩
  rw [← nextOf_eq_ite, succ_eq_toWord, Nat.mod_eq_of_lt (Nat.lt_of_le_of_lt hlt s.mod.isLt)]
  exact (exec_genNext hs hc).trans (genNextBody_emits hlt)

end Sys2Proof.Proofs
end

section
/-! PROOFS. The source's frame and unframe (42_framer R160 to R165, R171, R174): bits regrouped to bytes, occurrences of the
sentinel and the first of them, the serializer. -/

namespace Sys2Proof.Proofs

open Sys2Proof Sys2Proof.Machine

/-! ### Lists of equal blocks -/

section
variable {α β : Type} {f : α → List β} {n : ℕ}

theorem length_flatMap_of_length (hf : ∀ x, (f x).length = n) (xs : List α) : (xs.flatMap f).length = n * xs.length := by
  simp [hf, Nat.mul_comm]

theorem drop_flatMap_of_length (hf : ∀ x, (f x).length = n) (k : ℕ) (xs : List α) :
    (xs.flatMap f).drop (n * k) = (xs.drop k).flatMap f := by
  induction k generalizing xs with
  | zero => rfl
  | succ k ih =>
    cases xs with
    | nil => simp
    | cons x xs =>
      rw [List.flatMap_cons, List.drop_succ_cons, ← ih, Nat.mul_succ, Nat.add_comm]
      exact hf x ▸ List.drop_length_add_append _

/-- The k-th block of a list of blocks of length n. -/
theorem block_flatMap_of_length (hf : ∀ x, (f x).length = n) {k : ℕ} {xs : List α} {x : α} (hx : xs[k]? = some x) :
    ((xs.flatMap f).drop (n * k)).take n = f x := by
  obtain ⟨hk, rfl⟩ := List.getElem?_eq_some_iff.1 hx
  rw [drop_flatMap_of_length hf, List.drop_eq_getElem_cons hk, List.flatMap_cons]
  exact List.take_left' (hf _)

end

/-! ### Bits and bytes -/

theorem length_byteBits (v : Byte) : (byteBits v).length = 8 := rfl

theorem length_flatMap_byteBits (m : List Byte) : (m.flatMap byteBits).length = 8 * m.length :=
  length_flatMap_of_length length_byteBits m

theorem bitsValue_concat (b : List Bool) (x : Bool) : bitsValue (b ++ [x]) = Nat.bit x (bitsValue b) := by
  rw [bitsValue, List.foldl_concat, Nat.bit_val, bitsValue]

/-- Bit i of a number is the (i+1)-th of its bits from the end. -/
theorem testBit_bitsValue (b : List Bool) (i : ℕ) : (bitsValue b).testBit i = (b.reverse[i]?).getD false := by
  induction b using List.reverseRecOn generalizing i with
  | nil => simp [bitsValue]
  | append_singleton b x ih =>
    rw [bitsValue_concat, List.reverse_concat]
    cases i with
    | zero => simp
    | succ i => rw [Nat.testBit_bit_succ, ih, List.getElem?_cons_succ]

theorem getLsbD_ofNat_bitsValue {b : List Bool} {i : ℕ} (hi : i < 8) :
    (BitVec.ofNat 8 (bitsValue b)).getLsbD i = (b.reverse[i]?).getD false := by
  rw [BitVec.getLsbD_ofNat, testBit_bitsValue, decide_eq_true hi, Bool.true_and]

theorem ofNat_bitsValue_byteBits (v : Byte) : BitVec.ofNat 8 (bitsValue (byteBits v)) = v := by
  refine BitVec.eq_of_getLsbD_eq fun i hi => ?_
  rw [getLsbD_ofNat_bitsValue hi]
  interval_cases i <;> rfl

/-- Regrouping gives a message's bytes back from its bits (42_framer R165, 20_memory R74). -/
theorem regrouped_flatMap_byteBits {m : List Byte} {j : ℕ} {v : Byte} (hj : m[j]? = some v) :
    regrouped (m.flatMap byteBits) j = v := by
  rw [regrouped, block_flatMap_of_length length_byteBits hj, ofNat_bitsValue_byteBits]

theorem regrouped_take {b : List Bool} {n j : ℕ} (h : 8 * j + 8 ≤ n) : regrouped (b.take n) j = regrouped b j := by
  rw [regrouped, List.drop_take, List.take_take, min_eq_left (by omega), regrouped]

theorem regrouped_append {b c : List Bool} {j : ℕ} (h : 8 * j + 8 ≤ b.length) : regrouped (b ++ c) j = regrouped b j := by
  rw [← regrouped_take h, List.take_left]

/-! ### The serializer -/

theorem getElem?_byteBits {v : Byte} {r : ℕ} (hr : r < 8) : (byteBits v)[r]? = some (v.getLsbD (7 - r)) := by
  interval_cases r <;> rfl

theorem getElem?_flatMap_byteBits {m : List Byte} {k : ℕ} {v : Byte} (hv : m[k / 8]? = some v) :
    (m.flatMap byteBits)[k]? = some (v.getLsbD (7 - k % 8)) := by
  have hr := Nat.mod_lt k (by decide : 8 > 0)
  rw [← getElem?_byteBits hr, ← block_flatMap_of_length length_byteBits hv, List.getElem?_take_of_lt hr,
    List.getElem?_drop, Nat.div_add_mod]

theorem getElem?_sentinelBits {k : ℕ} (hk : k < 16) : sentinelBits[k]? = some (sentinel.getLsbD (15 - k)) := by
  interval_cases k <;> rfl

theorem getLsbD_sentinel {k : ℕ} (hk : k < 16) : sentinel.getLsbD (15 - k) = decide (k < 15) := by
  interval_cases k <;> rfl

theorem length_frame (m : List Byte) : (frame m).length = 8 * m.length + 16 := by
  rw [frame, List.length_append, length_flatMap_byteBits]
  rfl

/-- Settles O49: below 8·L the serializer's bit is one of byte k div 8, above it one of the sentinel. -/
theorem serializerProducesFrame : Obligations.SerializerProducesFrame := by
  intro s
  have hlen : (bufBytes s s.msglen.toNat).length = s.msglen.toNat := by simp [bufBytes]
  refine ⟨by rw [length_frame, hlen], fun k hk => ?_⟩
  have hbits := length_flatMap_byteBits (bufBytes s s.msglen.toNat)
  rw [hlen] at hbits
  rw [frame, frameBit]
  split
  · next hlt =>
    rw [List.getElem?_append_left (hbits ▸ hlt)]
    refine getElem?_flatMap_byteBits ?_
    rw [bufBytes, List.getElem?_map, List.getElem?_range (by omega)]
    rfl
  · next hge => rw [List.getElem?_append_right (by omega), hbits, getElem?_sentinelBits (by omega)]

/-! ### Occurrences of the sentinel -/

/-- An occurrence bit by bit: fifteen ones and a zero. -/
theorem occursAt_iff {b : List Bool} {i : ℕ} : occursAt b i = true ↔ ∀ k < 16, b[i + k]? = some (decide (k < 15)) := by
  have hsent (k : ℕ) (hk : k < 16) : sentinelBits[k]? = some (decide (k < 15)) := by
    rw [getElem?_sentinelBits hk, getLsbD_sentinel hk]
  rw [occursAt, beq_iff_eq]
  constructor
  · intro h k hk
    rw [← hsent k hk, ← h, List.getElem?_take_of_lt hk, List.getElem?_drop]
  · intro h
    refine List.ext_getElem? fun k => ?_
    by_cases hk : k < 16
    · rw [List.getElem?_take_of_lt hk, List.getElem?_drop, h k hk, hsent k hk]
    · rw [List.getElem?_take_eq_none (by omega), List.getElem?_eq_none (by simp [sentinelBits]; omega)]

theorem occursAt_length {b : List Bool} {i : ℕ} (h : occursAt b i = true) : i + 16 ≤ b.length := by
  obtain ⟨hlt, -⟩ := List.getElem?_eq_some_iff.1 (occursAt_iff.1 h 15 (by decide))
  exact hlt

theorem occursAt_take {b : List Bool} {n i : ℕ} (h : i + 16 ≤ n) : occursAt (b.take n) i = occursAt b i := by
  rw [occursAt, List.drop_take, List.take_take, min_eq_left (by omega), occursAt]

theorem occursAt_append {b c : List Bool} {i : ℕ} (h : i + 16 ≤ b.length) : occursAt (b ++ c) i = occursAt b i := by
  rw [← occursAt_take h, List.take_left]

/-- Settles O51: the zero that ends the first occurrence would be one of the fifteen ones of the second. -/
theorem sentinelOccurrencesDoNotOverlap : Obligations.SentinelOccurrencesDoNotOverlap := by
  intro b i j hi hj hij
  by_contra hover
  have hzero := occursAt_iff.1 hi 15 (by decide)
  have hone := occursAt_iff.1 hj (i + 15 - j) (by omega)
  rw [show j + (i + 15 - j) = i + 15 by omega, hzero] at hone
  simp at hone
  omega

/-! ### The first occurrence -/

theorem firstOccurrence_succ (c : ℕ) (b : List Bool) :
    firstOccurrence (c + 1) b = (firstOccurrence c b).map (· + 1) := by
  induction b generalizing c with
  | nil => rfl
  | cons x b ih =>
    unfold firstOccurrence
    split
    · rfl
    · exact ih (c + 1)

theorem firstOccurrence_cons_occurs {x : Bool} {b : List Bool} (h : occursAt (x :: b) 0 = true) :
    firstOccurrence 0 (x :: b) = some 0 := if_pos h

theorem firstOccurrence_cons_other {x : Bool} {b : List Bool} (h : occursAt (x :: b) 0 = false) :
    firstOccurrence 0 (x :: b) = (firstOccurrence 0 b).map (· + 1) := by
  rw [firstOccurrence, if_neg (by simp [h]), firstOccurrence_succ]

theorem occursAt_cons_succ (x : Bool) (b : List Bool) (i : ℕ) : occursAt (x :: b) (i + 1) = occursAt b i := rfl

theorem firstOccurrence_eq_none_iff {b : List Bool} : firstOccurrence 0 b = none ↔ ∀ i, occursAt b i = false := by
  induction b with
  | nil => simp [firstOccurrence, occursAt, sentinelBits]
  | cons x b ih =>
    cases h0 : occursAt (x :: b) 0 with
    | false =>
      rw [firstOccurrence_cons_other h0, Option.map_eq_none_iff, ih]
      refine ⟨fun h i => ?_, fun h i => h (i + 1)⟩
      cases i with
      | zero => exact h0
      | succ i => exact h i
    | true =>
      rw [firstOccurrence_cons_occurs h0]
      exact iff_of_false nofun fun h => absurd h0 (by simp [h 0])

theorem firstOccurrence_eq_some_iff {b : List Bool} {i : ℕ} :
    firstOccurrence 0 b = some i ↔ occursAt b i = true ∧ ∀ j < i, occursAt b j = false := by
  induction b generalizing i with
  | nil => simp [firstOccurrence, occursAt, sentinelBits]
  | cons x b ih =>
    cases h0 : occursAt (x :: b) 0 with
    | false =>
      rw [firstOccurrence_cons_other h0]
      cases i with
      | zero => simp [h0]
      | succ i =>
        rw [Nat.forall_lt_succ_left]
        simp [ih, h0, occursAt_cons_succ]
    | true =>
      rw [firstOccurrence_cons_occurs h0]
      cases i with
      | zero => simp [h0]
      | succ i =>
        rw [Nat.forall_lt_succ_left]
        simp [h0]

/-! ### Frame and unframe -/

theorem unframe_eq_none_iff {b : List Bool} : unframe b = none ↔ firstOccurrence 0 b = none := Option.map_eq_none_iff

theorem unframe_eq_some_iff {b : List Bool} {d : List Byte} :
    unframe b = some d ↔ ∃ i, firstOccurrence 0 b = some i ∧ (List.range (i / 8)).map (regrouped b) = d :=
  Option.map_eq_some_iff

theorem occursAt_frame_end (m : List Byte) : occursAt (frame m) (8 * m.length) = true := by
  rw [occursAt, frame, ← length_flatMap_byteBits, List.drop_left]
  rfl

/-- Below a frame's own sentinel its occurrences are those of the message's bits: none reaches into the sentinel
(42_framer R171). -/
theorem occursAt_frame {m : List Byte} {i : ℕ} (hi : i < 8 * m.length) :
    occursAt (frame m) i = occursAt (m.flatMap byteBits) i := by
  have hlen := length_flatMap_byteBits m
  by_cases hfit : i + 16 ≤ 8 * m.length
  · exact occursAt_append (by omega)
  · have hframe : occursAt (frame m) i = false := by
      by_contra hocc
      exact hfit (sentinelOccurrencesDoNotOverlap _ _ _ (by simpa using hocc) (occursAt_frame_end m) hi)
    have hbits : occursAt (m.flatMap byteBits) i = false := by
      by_contra hocc
      exact hfit (hlen ▸ occursAt_length (by simpa using hocc))
    rw [hframe, hbits]

theorem firstOccurrence_frame_iff {m : List Byte} :
    firstOccurrence 0 (frame m) = some (8 * m.length) ↔ ∀ i, occursAt (m.flatMap byteBits) i = false := by
  rw [firstOccurrence_eq_some_iff]
  refine ⟨fun ⟨_, hbelow⟩ i => ?_, fun hnone => ⟨occursAt_frame_end m, fun i hi => (occursAt_frame hi).trans (hnone i)⟩⟩
  by_contra hocc
  have hlen := occursAt_length (Bool.eq_true_of_not_eq_false hocc)
  rw [length_flatMap_byteBits] at hlen
  have hi : i < 8 * m.length := by omega
  exact hocc ((occursAt_frame hi).symm.trans (hbelow i hi))

theorem regrouped_frame (m : List Byte) : (List.range m.length).map (regrouped (frame m)) = m := by
  refine List.ext_getElem? fun j => ?_
  by_cases hj : j < m.length
  · rw [List.getElem?_map, List.getElem?_range hj, Option.map_some, frame,
      regrouped_append (by rw [length_flatMap_byteBits]; omega),
      regrouped_flatMap_byteBits (List.getElem?_eq_getElem hj), List.getElem?_eq_getElem hj]
  · rw [List.getElem?_eq_none (by simp; omega), List.getElem?_eq_none (by omega)]

/-- Settles O52: the message comes back exactly when the frame's first occurrence is its own sentinel, which comes after
8·L bits. -/
theorem frameUnframesUnlessSentinelInside : Obligations.FrameUnframesUnlessSentinelInside := by
  intro m
  rw [← firstOccurrence_frame_iff, unframe_eq_some_iff]
  constructor
  · rintro ⟨i, hfirst, hm⟩
    have hlen := congrArg List.length hm
    rw [List.length_map, List.length_range] at hlen
    have hfit := occursAt_length (firstOccurrence_eq_some_iff.1 hfirst).1
    rw [length_frame] at hfit
    rw [hfirst, show i = 8 * m.length by omega]
  · intro hfirst
    exact ⟨_, hfirst, by rw [Nat.mul_div_cancel_left _ (by decide), regrouped_frame]⟩

end Sys2Proof.Proofs
end

section
/-! PROOFS. The hardware deserializer (42_framer R166 to R169): what the shift register and the buffer hold after a list of
bits, and when the match condition holds. -/

namespace Sys2Proof.Proofs

open Sys2Proof Sys2Proof.Machine Sys2Proof.Laws

/-! ### Appends -/

/-- The bits appended in order (42_framer R166). -/
def appendBits (b : List Bool) (s : State) : State := b.foldl (fun u x => appendBit x u) s

theorem appendBits_concat (b : List Bool) (x : Bool) (s : State) :
    appendBits (b ++ [x]) s = appendBit x (appendBits b s) := List.foldl_concat ..

theorem toNat_bitcnt_appendBits {b : List Bool} {s : State} (h0 : s.bitcnt = 0) (hb : b.length < 2 ^ 64) :
    (appendBits b s).bitcnt.toNat = b.length := by
  induction b using List.reverseRecOn with
  | nil => exact congrArg BitVec.toNat h0
  | append_singleton b x ih =>
    rw [List.length_append, List.length_singleton] at hb ⊢
    have hbits := ih (by omega)
    rw [appendBits_concat, appendBit_bitcnt, bitcnt_succ (n := b.length + 1) (by omega) hb, hbits]

/-- An append puts its bit in bit 0 and moves the others up. -/
theorem getLsbD_sr_appendBit (x : Bool) (s : State) {i : ℕ} (hi : i < 16) :
    (appendBit x s).sr.getLsbD i = if i = 0 then x else s.sr.getLsbD (i - 1) := by
  rw [appendBit_sr, BitVec.getLsbD_or, BitVec.getLsbD_shiftLeft, BitVec.getLsbD_setWidth, BitVec.getLsbD_ofBool]
  cases i <;> simp [hi]

theorem getLsbD_sr_appendBits (b : List Bool) {s : State} (h0 : s.sr = 0) {i : ℕ} (hi : i < 16) :
    (appendBits b s).sr.getLsbD i = (b.reverse[i]?).getD false := by
  induction b using List.reverseRecOn generalizing i with
  | nil => simp [appendBits, h0]
  | append_singleton b x ih =>
    rw [appendBits_concat, getLsbD_sr_appendBit x _ hi, List.reverse_concat]
    cases i with
    | zero => rfl
    | succ i => exact ih (by omega)

theorem sr_appendBits_congr (b : List Bool) {s u : State} (hs : s.sr = 0) (hu : u.sr = 0) :
    (appendBits b s).sr = (appendBits b u).sr :=
  BitVec.eq_of_getLsbD_eq fun _ hi => (getLsbD_sr_appendBits b hs hi).trans (getLsbD_sr_appendBits b hu hi).symm

/-- Settles O50, by induction on the appended bits, the last one first. -/
theorem shiftRegisterHoldsLastBits : Obligations.ShiftRegisterHoldsLastBits :=
  fun b _ hsr hbits hlen => ⟨toNat_bitcnt_appendBits hbits hlen, fun _ hi => getLsbD_sr_appendBits b hsr hi⟩

/-! ### Appends with their commits -/

/-- The bits appended in order, each followed by its commit (42_framer R167). -/
def receive (b : List Bool) (s : State) : State := b.foldl (fun u x => commit (appendBit x u)) s

theorem receive_cons (x : Bool) (b : List Bool) (s : State) :
    receive (x :: b) s = receive b (commit (appendBit x s)) := rfl

theorem receive_concat (b : List Bool) (x : Bool) (s : State) :
    receive (b ++ [x]) s = commit (appendBit x (receive b s)) := List.foldl_concat ..

theorem receive_append (b c : List Bool) (s : State) : receive (b ++ c) s = receive c (receive b s) := List.foldl_append

/-- Commits write MSGBUF only, so BITCNT and SR are those of the appends. -/
theorem receive_eq (b : List Bool) (s : State) :
    ∃ m, receive b s = { s with bitcnt := (appendBits b s).bitcnt, sr := (appendBits b s).sr, msgbuf := m } := by
  induction b using List.reverseRecOn with
  | nil => exact ⟨s.msgbuf, rfl⟩
  | append_singleton b x ih =>
    obtain ⟨m, hm⟩ := ih
    obtain ⟨m', hm'⟩ := commit_eq (appendBit x (receive b s))
    refine ⟨m', ?_⟩
    rw [receive_concat, hm', hm, appendBits_concat]
    rfl

theorem receive_bitcnt (b : List Bool) (s : State) : (receive b s).bitcnt = (appendBits b s).bitcnt := by
  obtain ⟨m, hm⟩ := receive_eq b s
  rw [hm]

theorem receive_sr (b : List Bool) (s : State) : (receive b s).sr = (appendBits b s).sr := by
  obtain ⟨m, hm⟩ := receive_eq b s
  rw [hm]

theorem receive_cfg (b : List Bool) (s : State) : (receive b s).cfg = s.cfg := by
  obtain ⟨m, hm⟩ := receive_eq b s
  rw [hm]

/-- After a whole number of bytes the low half of SR is the last of them. -/
theorem low_sr_appendBits {b : List Bool} {s : State} {j : ℕ} (h0 : s.sr = 0) (hb : b.length = 8 * j + 8) :
    (appendBits b s).sr.extractLsb' 0 8 = regrouped b j := by
  refine BitVec.eq_of_getLsbD_eq fun i hi => ?_
  have hlen : (b.drop (8 * j)).length = 8 := by rw [List.length_drop]; omega
  rw [BitVec.getLsbD_extractLsb', decide_eq_true hi, Bool.true_and, Nat.zero_add,
    getLsbD_sr_appendBits b h0 (by omega), regrouped, List.take_of_length_le hlen.le, getLsbD_ofNat_bitsValue hi,
    List.getElem?_reverse (by omega), List.getElem?_reverse (by omega), List.getElem?_drop]
  congr 2
  omega

/-- The bytes committed are those the bits regroup to, as far as the buffer reaches (42_framer R167). -/
theorem bufByte_receive {b : List Bool} {s : State} (hsr : s.sr = 0) (h0 : s.bitcnt = 0) (hb : b.length < 2 ^ 64) (a : ℕ) :
    bufByte (receive b s) a = if a < b.length / 8 ∧ a < s.cfg.msgbufBytes then regrouped b a else bufByte s a := by
  induction b using List.reverseRecOn with
  | nil => simp [receive]
  | append_singleton b x ih =>
    have hbits : (appendBit x (receive b s)).bitcnt.toNat = b.length + 1 := by
      rw [appendBit_bitcnt, receive_bitcnt, ← appendBit_bitcnt _ x, ← appendBits_concat, toNat_bitcnt_appendBits h0 hb,
        List.length_append, List.length_singleton]
    have hlow (hlen : b.length + 1 = 8 * a + 8) :
        (appendBit x (receive b s)).sr.extractLsb' 0 8 = regrouped (b ++ [x]) a := by
      rw [appendBit_sr, receive_sr, ← appendBit_sr, ← appendBits_concat]
      exact low_sr_appendBits hsr (by rw [List.length_append, List.length_singleton, hlen])
    rw [List.length_append, List.length_singleton] at hb ⊢
    rw [receive_concat, bufByte_commit, hbits, appendBit_cfg, receive_cfg]
    split
    · next hc => rw [hlow (by omega), if_pos (by omega)]
    · next hc =>
      refine (ih (by omega)).trans ?_
      by_cases ha : a < b.length / 8 ∧ a < s.cfg.msgbufBytes
      · rw [if_pos ha, if_pos (by omega), regrouped_append (by omega)]
      · rw [if_neg ha, if_neg (by omega)]

/-! ### The match condition -/

theorem sr_eq_sentinel_iff {b : List Bool} {s : State} (h0 : s.sr = 0) (hb : 16 ≤ b.length) :
    (appendBits b s).sr = sentinel ↔ occursAt b (b.length - 16) = true := by
  have hbit (k : ℕ) (hk : k < 16) :
      b[b.length - 16 + k]? = some (decide (k < 15)) ↔
        (appendBits b s).sr.getLsbD (15 - k) = sentinel.getLsbD (15 - k) := by
    rw [getLsbD_sr_appendBits b h0 (by omega), List.getElem?_reverse (by omega), getLsbD_sentinel hk,
      show b.length - 1 - (15 - k) = b.length - 16 + k by omega,
      List.getElem?_eq_getElem (show b.length - 16 + k < b.length by omega)]
    simp
  rw [occursAt_iff]
  refine ⟨fun h k hk => (hbit k hk).2 (by rw [h]), fun h => BitVec.eq_of_getLsbD_eq fun i hi => ?_⟩
  have hi' := (hbit (15 - i) (by omega)).1 (h _ (by omega))
  rwa [show 15 - (15 - i) = i by omega] at hi'

/-- The match condition holds exactly when the bits received end in the sentinel (42_framer R168). -/
theorem sentinelFound_receive {b : List Bool} {s : State} (hsr : s.sr = 0) (h0 : s.bitcnt = 0) (hb : b.length < 2 ^ 64) :
    sentinelFound (receive b s) = true ↔ 16 ≤ b.length ∧ occursAt b (b.length - 16) = true := by
  rw [sentinelFound, receive_bitcnt, receive_sr, toNat_bitcnt_appendBits h0 hb, Bool.and_eq_true, decide_eq_true_iff,
    beq_iff_eq]
  exact and_congr_right fun hlen => sr_eq_sentinel_iff hsr hlen

/-! ### The channels of a pixel -/

/-- The bits the listed channels of a pixel carry. -/
def channelBits (p : Pixel) (js : List ℕ) : List Bool := js.map fun j => lsb (channel j p)

/-- A scan without a match receives every channel's bit (43_codec R201). -/
theorem scanChannels_no_match {p : Pixel} {js : List ℕ} {s : State}
    (h : ∀ l < js.length, sentinelFound (receive ((channelBits p js).take (l + 1)) s) = false) :
    scanChannels p js s = endExtract (receive (channelBits p js) s) := by
  induction js generalizing s with
  | nil => rfl
  | cons j js ih =>
    have hno : sentinelFound (commit (appendBit (lsb (channel j p)) s)) = false := h 0 (Nat.succ_pos _)
    simp only [scanChannels, hno, Bool.false_eq_true, if_false]
    exact ih fun l hl => h (l + 1) (Nat.succ_lt_succ hl)

/-- A scan stops at its first match. -/
theorem scanChannels_match {p : Pixel} {js : List ℕ} {s : State} {n : ℕ} (hn : n < js.length)
    (hmatch : sentinelFound (receive ((channelBits p js).take (n + 1)) s) = true)
    (hbefore : ∀ l < n, sentinelFound (receive ((channelBits p js).take (l + 1)) s) = false) :
    scanChannels p js s = finishMatch (receive ((channelBits p js).take (n + 1)) s) := by
  induction js generalizing s n with
  | nil => exact absurd hn (Nat.not_lt_zero n)
  | cons j js ih =>
    cases n with
    | zero =>
      have hyes : sentinelFound (commit (appendBit (lsb (channel j p)) s)) = true := hmatch
      simp only [scanChannels, hyes, if_true]
      rfl
    | succ n =>
      have hno : sentinelFound (commit (appendBit (lsb (channel j p)) s)) = false := hbefore 0 (Nat.succ_pos _)
      simp only [scanChannels, hno, Bool.false_eq_true, if_false]
      exact ih (Nat.lt_of_succ_lt_succ hn) hmatch fun l hl => hbefore (l + 1) (Nat.succ_lt_succ hl)

/-! ### Emissions and received bits do not meet -/

theorem advance_commit (s : State) : advance (commit s) = commit (advance s) := apply_ite advance ..

theorem advance_receive (b : List Bool) (s : State) : advance (receive b s) = receive b (advance s) := by
  induction b generalizing s with
  | nil => rfl
  | cons x b ih => rw [receive_cons, ih, advance_commit]; rfl

end Sys2Proof.Proofs
end

section
/-! PROOFS. A whole undisturbed extract (42_framer R169, R170; 43_codec R201 to R204): the state after any number of pixels
and bits, the step between two of them, and the two endings. -/

namespace Sys2Proof.Proofs

open Sys2Proof Sys2Proof.Machine Sys2Proof.Laws

/-! ### Steps in a row -/

section
variable {M : Host.Core} {k : ℕ} {s t : M.State}

theorem coreRun_one (s : M.State) : M.run 1 s = M.step s := by
  unfold Host.Core.run
  split
  · next u hs => exact hs.symm
  · next f hs => exact hs.symm
  · next r hs => exact hs.symm

theorem coreRun_succ_of_step (h : M.step s = .next t) : M.run (k + 1) s = M.run k t := by
  rw [Host.Core.run, h]

theorem coreRun_succ_cases (h : M.run (k + 1) s = .next t) : ∃ u, M.step s = .next u ∧ M.run k u = .next t := by
  rw [Host.Core.run] at h
  split at h
  · next u hs => exact ⟨u, hs, h⟩
  · cases h
  · cases h

theorem coreRun_succ_of_run (h : M.run k s = .next t) : M.run (k + 1) s = M.step t := by
  induction k generalizing s with
  | zero =>
    cases h
    exact coreRun_one _
  | succ k ih =>
    obtain ⟨u, hu, hrun⟩ := coreRun_succ_cases h
    rw [coreRun_succ_of_step hu]
    exact ih hrun

end

/-- A run's last step. -/
theorem run_succ_of_run {k : ℕ} {s t : State} (h : run k s = .next t) : run (k + 1) s = step t :=
  coreRun_succ_of_run (M := Sys2Proof.core) h

/-! ### Emissions in a row -/

/-- What emissions write. -/
theorem iterate_advance_eq (k : ℕ) (s : State) : ∃ i x v n c,
    advance^[k] s = { s with lastidx := i, coord := x, lcgs := v, count := n, cvalid := c } := by
  induction k with
  | zero => exact ⟨s.lastidx, s.coord, s.lcgs, s.count, s.cvalid, rfl⟩
  | succ k ih =>
    obtain ⟨i, x, v, n, c, hk⟩ := ih
    rw [Function.iterate_succ_apply', hk]
    exact ⟨_, _, _, _, _, rfl⟩

theorem iterate_advance_sr (k : ℕ) (s : State) : (advance^[k] s).sr = s.sr := by
  obtain ⟨i, x, v, n, c, hk⟩ := iterate_advance_eq k s
  rw [hk]

theorem iterate_advance_bitcnt (k : ℕ) (s : State) : (advance^[k] s).bitcnt = s.bitcnt := by
  obtain ⟨i, x, v, n, c, hk⟩ := iterate_advance_eq k s
  rw [hk]

theorem toNat_count_iterate_advance {s : State} (h0 : s.count = 0) {k : ℕ} (hk : k < 2 ^ 32) :
    (advance^[k] s).count.toNat = k := by
  induction k with
  | zero => exact congrArg BitVec.toNat h0
  | succ k ih =>
    rw [Function.iterate_succ_apply', advance_count, ih (by omega), toNat_toWord hk]

theorem getElem?_emissions {n k : ℕ} (s : State) (hk : k < n) :
    (emissions n s)[k]? = some (advance^[k] s).lcgs.toNat := by
  induction n generalizing s k with
  | zero => exact absurd hk (Nat.not_lt_zero k)
  | succ n ih =>
    cases k with
    | zero => rfl
    | succ k => exact ih (advance s) (Nat.lt_of_succ_lt_succ hk)

theorem length_emissions (n : ℕ) (s : State) : (emissions n s).length = n := by
  induction n generalizing s with
  | zero => rfl
  | succ n ih => rw [emissions, List.length_cons, ih]

/-- LASTIDX is the last value emitted (41_sequence R131). -/
theorem getLast?_emissions (n : ℕ) (s : State) :
    (emissions (n + 1) s).getLast? = some (advance^[n + 1] s).lastidx.toNat := by
  rw [List.getLast?_eq_getElem?, length_emissions, getElem?_emissions s (by omega), Function.iterate_succ_apply']
  rfl

/-- The engine's step in an undisturbed extract: one emission, and the scan of its pixel (43_codec R201). -/
theorem step_undisturbed_extract {s : State} (hu : Undisturbed s) (hs : s.state = .traversing) (ho : s.opk = .extract)
    (hn : s.count.toNat < s.mod.toNat) :
    step s = .next (scanChannels (s.image.pixel s.lcgs.toNat) [0, 1, 2] (advance s)) := by
  obtain ⟨hagenda, hgrid, hraced, htaint⟩ := hu
  obtain ⟨st, e, n, b, r, m, hscan⟩ := scanChannels_eq (s.image.pixel s.lcgs.toNat) [0, 1, 2] (advance s)
  rw [step_nil hagenda, defaultTurn_traversing hs, engineStep_extract ho, emit_next hn, extractPixel,
    pixelRead_undisturbed (s := advance s) _ _ hgrid hraced, linearIndex_coord]
  dsimp only [advance_image]
  rw [hscan]
  exact congrArg _ (settleRaces_undisturbed hraced htaint)

/-! ### The extract's states -/

/-- An extract at its start, with nobody but the engine to move. -/
structure ExtractStart (s : State) : Prop where
  inv : Inv s
  undisturbed : Undisturbed s
  state : s.state = .traversing
  opk : s.opk = .extract
  count : s.count = 0
  sr : s.sr = 0

/-- The bits the whole traversal reads, in order (43_codec R204). -/
def extractBits (s : State) : List Bool := pixelBits s.image (emissions s.mod.toNat s)

/-- After `k` emissions and the first `n` bits. -/
def received (s : State) (k n : ℕ) : State := receive ((extractBits s).take n) (advance^[k] s)

theorem length_extractBits (s : State) : (extractBits s).length = 3 * s.mod.toNat := by
  rw [extractBits, pixelBits, length_flatMap_of_length (n := 3) fun _ => rfl, length_emissions]

theorem pixel_extractBits {s : State} {k : ℕ} (hk : k < s.mod.toNat) :
    ((extractBits s).drop (3 * k)).take 3 = channelBits (s.image.pixel (advance^[k] s).lcgs.toNat) [0, 1, 2] :=
  block_flatMap_of_length (f := fun k => channelBits (s.image.pixel k) [0, 1, 2]) (fun _ => rfl) (getElem?_emissions s hk)

theorem received_add (s : State) (k n l : ℕ) :
    received s k (n + l) = receive (((extractBits s).drop n).take l) (received s k n) := by
  rw [received, List.take_add, receive_append, received]

theorem advance_received (s : State) (k n : ℕ) : advance (received s k n) = received s (k + 1) n := by
  rw [received, advance_receive, ← Function.iterate_succ_apply' advance, received]

theorem length_take_extractBits {s : State} {n : ℕ} (hn : n ≤ 3 * s.mod.toNat) :
    ((extractBits s).take n).length = n ∧ n < 2 ^ 64 := by
  have hm := s.mod.isLt
  rw [List.length_take, length_extractBits]
  omega

/-- The first `l` channels of the pixel carry the next `l` bits. -/
theorem receive_channelBits {s : State} {k l : ℕ} (hk : k < s.mod.toNat) (hl : l ≤ 3) :
    receive ((channelBits (s.image.pixel (advance^[k] s).lcgs.toNat) [0, 1, 2]).take l) (received s (k + 1) (3 * k)) =
      received s (k + 1) (3 * k + l) := by
  rw [received_add, ← pixel_extractBits hk, List.take_take, min_eq_left hl]

section
variable {s : State} (h : ExtractStart s)
include h

theorem ExtractStart.mod_pos : 1 ≤ s.mod.toNat := by
  obtain ⟨hc, -⟩ := h.inv.traversing h.state
  obtain ⟨-, hm, -⟩ := h.inv.configured hc
  exact hm

theorem ExtractStart.bitcnt : s.bitcnt = 0 := by
  obtain ⟨-, -, -, hbits⟩ := h.inv.traversing h.state
  rw [h.count] at hbits
  exact BitVec.eq_of_toNat_eq hbits

theorem ExtractStart.err : s.err = .none := h.inv.err.1 (.inr (.inl h.state))

/-! What is left after `k` emissions and `n` bits: the emissions' registers, the deserializer's, and the buffer. -/

theorem received_eq (k n : ℕ) : ∃ b m, received s k n =
    { s with
      lastidx := (advance^[k] s).lastidx, coord := (advance^[k] s).coord, lcgs := (advance^[k] s).lcgs,
      count := (advance^[k] s).count, cvalid := (advance^[k] s).cvalid, bitcnt := b,
      sr := (appendBits ((extractBits s).take n) s).sr, msgbuf := m } := by
  obtain ⟨m, hm⟩ := receive_eq ((extractBits s).take n) (advance^[k] s)
  have hsr := sr_appendBits_congr ((extractBits s).take n) ((iterate_advance_sr k s).trans h.sr) h.sr
  obtain ⟨i, x, v, c, f, hk⟩ := iterate_advance_eq k s
  refine ⟨(appendBits ((extractBits s).take n) (advance^[k] s)).bitcnt, m, ?_⟩
  rw [received, hm, hsr, hk]

theorem toNat_bitcnt_received (k : ℕ) {n : ℕ} (hn : n ≤ 3 * s.mod.toNat) : (received s k n).bitcnt.toNat = n := by
  obtain ⟨hlen, hlt⟩ := length_take_extractBits hn
  rw [received, receive_bitcnt, toNat_bitcnt_appendBits ((iterate_advance_bitcnt k s).trans h.bitcnt) (hlen.trans_lt hlt),
    hlen]

theorem toNat_count_received {k : ℕ} (n : ℕ) (hk : k ≤ s.mod.toNat) : (received s k n).count.toNat = k := by
  obtain ⟨b, m, hr⟩ := received_eq h k n
  rw [hr]
  exact toNat_count_iterate_advance h.count (hk.trans_lt s.mod.isLt)

theorem bufByte_received (k : ℕ) {n : ℕ} (hn : n ≤ 3 * s.mod.toNat) (a : ℕ) :
    bufByte (received s k n) a =
      if a < n / 8 ∧ a < s.cfg.msgbufBytes then regrouped (extractBits s) a else bufByte s a := by
  obtain ⟨hlen, hlt⟩ := length_take_extractBits hn
  rw [received, bufByte_receive ((iterate_advance_sr k s).trans h.sr) ((iterate_advance_bitcnt k s).trans h.bitcnt)
    (hlen.trans_lt hlt), hlen]
  obtain ⟨i, x, v, c, f, hk⟩ := iterate_advance_eq k s
  rw [hk]
  exact ite_congr rfl (fun ha => regrouped_take (by omega)) fun _ => rfl

theorem sentinelFound_received (k : ℕ) {n : ℕ} (hn : n ≤ 3 * s.mod.toNat) :
    sentinelFound (received s k n) = true ↔ 16 ≤ n ∧ occursAt (extractBits s) (n - 16) = true := by
  obtain ⟨hlen, hlt⟩ := length_take_extractBits hn
  rw [received, sentinelFound_receive ((iterate_advance_sr k s).trans h.sr) ((iterate_advance_bitcnt k s).trans h.bitcnt)
    (hlen.trans_lt hlt), hlen]
  exact and_congr_right fun h16 => by rw [occursAt_take (by omega)]

theorem sentinelFound_received_false (k : ℕ) {n : ℕ} (hn : n ≤ 3 * s.mod.toNat)
    (hno : 16 ≤ n → occursAt (extractBits s) (n - 16) = false) : sentinelFound (received s k n) = false := by
  by_contra hfound
  obtain ⟨h16, hocc⟩ := (sentinelFound_received h k hn).1 (Bool.eq_true_of_not_eq_false hfound)
  simp [hno h16] at hocc

/-! ### The steps -/

/-- A pixel step scans the pixel of the value it emits. -/
theorem step_received {k : ℕ} (hk : k < s.mod.toNat) (n : ℕ) :
    step (received s k n) =
      .next (scanChannels (s.image.pixel (advance^[k] s).lcgs.toNat) [0, 1, 2] (received s (k + 1) n)) := by
  have hcount := toNat_count_received h n hk.le
  rw [← advance_received]
  obtain ⟨b, m, hr⟩ := received_eq h k n
  rw [hr] at hcount ⊢
  exact step_undisturbed_extract h.undisturbed h.state h.opk (hcount.trans_lt hk)

theorem step_no_match {k : ℕ} (hk : k < s.mod.toNat)
    (hno : ∀ i, i + 16 ≤ 3 * (k + 1) → occursAt (extractBits s) i = false) :
    step (received s k (3 * k)) = .next (endExtract (received s (k + 1) (3 * (k + 1)))) := by
  rw [step_received h hk, scanChannels_no_match fun l hl => ?_]
  · exact congrArg (fun u => Host.Outcome.next (endExtract u)) (receive_channelBits hk le_rfl)
  · have hl : l < 3 := hl
    rw [receive_channelBits hk hl]
    exact sentinelFound_received_false h _ (by omega) fun h16 => hno _ (by omega)

theorem step_match {k i : ℕ} (hfirst : firstOccurrence 0 (extractBits s) = some i) (hk : (i + 15) / 3 = k) :
    step (received s k (3 * k)) = .next (finishMatch (received s (k + 1) (i + 16))) := by
  obtain ⟨hocc, hbefore⟩ := firstOccurrence_eq_some_iff.1 hfirst
  have hfit := occursAt_length hocc
  rw [length_extractBits] at hfit
  have hkm : k < s.mod.toNat := by omega
  have hbit : 3 * k + (i % 3 + 1) = i + 16 := by omega
  have hrec (l : ℕ) (hl : l < 3) := receive_channelBits hkm (l := l + 1) hl
  have hi : i % 3 < 3 := Nat.mod_lt i (by decide)
  rw [step_received h hkm, scanChannels_match (js := [0, 1, 2]) hi, hrec _ hi, hbit]
  · rw [hrec _ hi, hbit]
    exact (sentinelFound_received h _ hfit).2 ⟨by omega, hocc⟩
  · intro l hl
    rw [hrec l (by omega)]
    exact sentinelFound_received_false h _ (by omega) fun h16 => hbefore _ (by omega)

theorem endExtract_received {k : ℕ} (hk : k < s.mod.toNat) (n : ℕ) : endExtract (received s k n) = received s k n := by
  have hcount := toNat_count_received h n hk.le
  obtain ⟨b, m, hr⟩ := received_eq h k n
  rw [hr] at hcount ⊢
  exact if_neg fun heq => hk.ne (hcount.symm.trans (congrArg BitVec.toNat heq))

theorem endExtract_received_last (n : ℕ) :
    endExtract (received s s.mod.toNat n) = { received s s.mod.toNat n with reslen := 0, state := .exhausted } := by
  have hcount := toNat_count_received h n le_rfl
  obtain ⟨b, m, hr⟩ := received_eq h s.mod.toNat n
  rw [hr] at hcount ⊢
  exact if_pos (BitVec.eq_of_toNat_eq hcount)

/-- As long as no occurrence is complete the extract goes on. -/
theorem run_received {k : ℕ} (hk : k < s.mod.toNat)
    (hno : ∀ i, i + 16 ≤ 3 * k → occursAt (extractBits s) i = false) :
    run k s = .next (received s k (3 * k)) := by
  induction k with
  | zero => rfl
  | succ k ih =>
    rw [run_succ_of_run (ih (by omega) fun i hi => hno i (by omega)), step_no_match h (by omega) hno,
      endExtract_received h hk]

/-! ### The endings -/

theorem run_no_match (hnone : firstOccurrence 0 (extractBits s) = none) :
    run s.mod.toNat s =
      .next { received s s.mod.toNat (3 * s.mod.toNat) with reslen := 0, state := .exhausted } := by
  have hno := firstOccurrence_eq_none_iff.1 hnone
  have hm := h.mod_pos
  obtain ⟨k, hk⟩ : ∃ k, s.mod.toNat = k + 1 := ⟨s.mod.toNat - 1, by omega⟩
  have hrun := run_received h (k := k) (by omega) fun i _ => hno i
  rw [← endExtract_received_last h, hk, run_succ_of_run hrun, step_no_match h (by omega) fun i _ => hno i]

theorem run_match {i : ℕ} (hfirst : firstOccurrence 0 (extractBits s) = some i) :
    run ((i + 16 + 2) / 3) s = .next (finishMatch (received s ((i + 16 + 2) / 3) (i + 16))) := by
  obtain ⟨hocc, hbefore⟩ := firstOccurrence_eq_some_iff.1 hfirst
  have hfit := occursAt_length hocc
  rw [length_extractBits] at hfit
  have hrun := run_received h (k := (i + 15) / 3) (by omega) fun j hj => hbefore j (by omega)
  rw [show (i + 16 + 2) / 3 = (i + 15) / 3 + 1 by omega, run_succ_of_run hrun, step_match h hfirst rfl]

/-- Where and how an extract ends: at its last pixel without a match (43_codec R202), or at the last bit of the first
occurrence (42_framer R169). -/
def EndsWith (s : State) (n c : ℕ) (st : EngineState) (e : ErrCode) (r : Word) : Prop :=
  (firstOccurrence 0 (extractBits s) = none → n = s.mod.toNat ∧ c = 3 * n ∧ st = .exhausted ∧ e = .none ∧ r = 0) ∧
  ∀ i, firstOccurrence 0 (extractBits s) = some i →
    n = (i + 16 + 2) / 3 ∧ c = i + 16 ∧ r.toNat = i / 8 ∧
      if s.cfg.msgbufBytes < i / 8 then st = .failed ∧ e = .msgOverflow else st = .done ∧ e = .none

theorem finishMatch_received {k i : ℕ} (hi : i + 16 ≤ 3 * s.mod.toNat) :
    ∃ st e, finishMatch (received s k (i + 16)) =
        { received s k (i + 16) with state := st, err := e, reslen := toWord (i / 8) } ∧
      if s.cfg.msgbufBytes < i / 8 then st = .failed ∧ e = .msgOverflow else st = .done ∧ e = .none := by
  have hbits := toNat_bitcnt_received h k hi
  obtain ⟨b, m, hr⟩ := received_eq h k (i + 16)
  rw [hr] at hbits ⊢
  simp only [finishMatch, hbits, Nat.add_sub_cancel]
  split
  · exact ⟨.failed, .msgOverflow, rfl, rfl, rfl⟩
  · exact ⟨.done, s.err, rfl, rfl, h.err⟩

theorem exists_ending : ∃ n c st e r, 1 ≤ n ∧ n ≤ s.mod.toNat ∧ c ≤ 3 * s.mod.toNat ∧
    run n s = .next { received s n c with state := st, err := e, reslen := r } ∧ EndsWith s n c st e r := by
  have hm := s.mod.isLt
  cases hfirst : firstOccurrence 0 (extractBits s) with
  | none =>
    obtain ⟨b, m, hr⟩ := received_eq h s.mod.toNat (3 * s.mod.toNat)
    have hrun := run_no_match h hfirst
    refine ⟨_, _, .exhausted, s.err, 0, h.mod_pos, le_rfl, le_rfl, ?_, fun _ => ⟨rfl, rfl, rfl, h.err, rfl⟩,
      by simp [hfirst]⟩
    rw [hr] at hrun ⊢
    exact hrun
  | some i =>
    have hfit := occursAt_length (firstOccurrence_eq_some_iff.1 hfirst).1
    rw [length_extractBits] at hfit
    obtain ⟨st, e, hend, hcase⟩ := finishMatch_received h (k := (i + 16 + 2) / 3) hfit
    refine ⟨_, _, st, e, _, by omega, by omega, hfit, (run_match h hfirst).trans (congrArg _ hend), by simp [hfirst],
      fun j hj => ?_⟩
    cases hfirst.symm.trans hj
    exact ⟨rfl, rfl, toNat_toWord (by omega), hcase⟩

end

theorem bufBytes_of_bufByte {t : State} {n : ℕ} {f : ℕ → Byte} (h : ∀ a < n, bufByte t a = f a) :
    bufBytes t n = (List.range n).map f :=
  List.map_congr_left fun a ha => h a (List.mem_range.1 ha)

/-- Settles O58: the state at the ending is the start's after n emissions and c received bits, so its fields are read off;
the ending says which n and c. -/
theorem extractComputesUnframe : Obligations.ExtractComputesUnframe := by
  intro s hinv hundisturbed hstate hopk hcount hsr
  have h : ExtractStart s := ⟨hinv, hundisturbed, hstate, hopk, hcount, hsr⟩
  obtain ⟨n, c, st, e, r, hn1, hnm, hc, hrun, hnone, hsome⟩ := exists_ending h
  have hbuf := bufByte_received h n hc
  have hbits := toNat_bitcnt_received h n hc
  have hcnt := toNat_count_received h c hnm
  obtain ⟨n, rfl⟩ : ∃ k, n = k + 1 := ⟨n - 1, by omega⟩
  have hvalid : (advance^[n + 1] s).cvalid = true := by rw [Function.iterate_succ_apply']; rfl
  obtain ⟨b, m, hr⟩ := received_eq h (n + 1) c
  rw [hr] at hrun hbits hbuf hcnt
  obtain rfl : b.toNat = c := hbits
  refine ⟨n + 1, _, hnm, hrun, rfl, hbuf, rfl, rfl, rfl, rfl, hvalid, hcnt, rfl, rfl, rfl, rfl, rfl, rfl, rfl, rfl, rfl, rfl,
    rfl, rfl, rfl, rfl, rfl, rfl, rfl, fun hunframe => ?_, fun i hi => ?_, fun d hd => ?_⟩
  · obtain ⟨hn, hc, rfl, rfl, rfl⟩ := hnone (unframe_eq_none_iff.1 hunframe)
    exact ⟨hn, rfl, rfl, rfl, BitVec.eq_of_toNat_eq (hcnt.trans hn), hc.trans (congrArg _ hn)⟩
  · obtain ⟨hn, hc, -⟩ := hsome i hi
    exact ⟨hc, hn, getLast?_emissions n s⟩
  · obtain ⟨i, hi, rfl⟩ := unframe_eq_some_iff.1 hd
    obtain ⟨-, hc, hlen, hend⟩ := hsome i hi
    have hbytes (k : ℕ) (hk : k ≤ i / 8) (hfit : k ≤ s.cfg.msgbufBytes) :=
      bufBytes_of_bufByte (n := k) fun a ha => (hbuf a).trans (if_pos (by omega))
    rw [List.length_map, List.length_range]
    refine ⟨hlen, fun hfit => ?_, fun hover => ?_⟩
    · rw [if_neg (by omega)] at hend
      exact ⟨hend.1, hend.2, hbytes _ le_rfl hfit⟩
    · rw [if_pos hover] at hend
      refine ⟨hend.1, hend.2, ?_⟩
      rw [← List.map_take, List.take_range, min_eq_left hover.le]
      exact hbytes _ hover.le le_rfl

end Sys2Proof.Proofs
end

section
/-! PROOFS. The codec's operations on one pixel (43_codec R193, 20_memory R69), and the starts and refusals of EMBED and
EXTRACT (43_codec R192, R199). -/

namespace Sys2Proof.Proofs

open Sys2Proof Sys2Proof.Machine Sys2Proof.Laws

/-! ### LSB insert -/

theorem getLsbD_upperMask {i : ℕ} (hi : i < 8) : (0xFE : Byte).getLsbD i = decide (i ≠ 0) := by
  interval_cases i <;> rfl

/-- LSB insert bit by bit (43_codec R193). -/
theorem getLsbD_insertLsb (ch : Byte) (b : Bool) {i : ℕ} (hi : i < 8) :
    (insertLsb ch b).getLsbD i = if i = 0 then b else ch.getLsbD i := by
  rw [insertLsb, BitVec.getLsbD_or, BitVec.getLsbD_and, getLsbD_upperMask hi, BitVec.getLsbD_setWidth,
    BitVec.getLsbD_ofBool]
  cases i <;> simp [hi]

theorem insertLsb_upper (ch : Byte) (b : Bool) : insertLsb ch b &&& 0xFE = ch &&& 0xFE := by
  refine BitVec.eq_of_getLsbD_eq fun i hi => ?_
  rw [BitVec.getLsbD_and, BitVec.getLsbD_and, getLsbD_insertLsb ch b hi, getLsbD_upperMask hi]
  cases i <;> simp

theorem lsb_insertLsb (ch : Byte) (b : Bool) : lsb (insertLsb ch b) = b := getLsbD_insertLsb ch b (by decide)

theorem insertLsb_lsb (ch : Byte) : insertLsb ch (lsb ch) = ch := by
  refine BitVec.eq_of_getLsbD_eq fun i hi => ?_
  rw [getLsbD_insertLsb ch _ hi]
  split
  · next h => rw [h, lsb]
  · rfl

/-- Settles O53, bit by bit. -/
theorem lsbInsertKeepsUpperBits : Obligations.LsbInsertKeepsUpperBits :=
  fun ch b => ⟨insertLsb_upper ch b, lsb_insertLsb ch b, fun h => h ▸ insertLsb_lsb ch⟩

/-! ### The channels of a pixel word -/

theorem getLsbD_channel (j : ℕ) (p : Pixel) {i : ℕ} (hi : i < 8) :
    (channel j p).getLsbD i = p.getLsbD (16 - 8 * j + i) := by
  rw [channel, BitVec.getLsbD_extractLsb', decide_eq_true hi, Bool.true_and]

theorem getLsbD_byteMask (i : ℕ) : (0xFF#24).getLsbD i = decide (i < 8) := by
  have hmask : 0xFF#24 = (BitVec.allOnes 8).setWidth 24 := rfl
  rw [hmask, BitVec.getLsbD_setWidth, BitVec.getLsbD_allOnes, Bool.and_eq_right_iff_imp, decide_eq_true_iff,
    decide_eq_true_iff]
  omega

/-- A channel's byte replaces the pixel's eight bits from bit 16 − 8·j up. -/
theorem getLsbD_setChannel (j : ℕ) (p : Pixel) (v : Byte) {n : ℕ} (hn : n < 24) :
    (setChannel j p v).getLsbD n =
      if 16 - 8 * j ≤ n ∧ n < 16 - 8 * j + 8 then v.getLsbD (n - (16 - 8 * j)) else p.getLsbD n := by
  rw [setChannel, BitVec.getLsbD_or, BitVec.getLsbD_and, BitVec.getLsbD_not, BitVec.getLsbD_shiftLeft,
    BitVec.getLsbD_shiftLeft, getLsbD_byteMask, BitVec.getLsbD_setWidth]
  generalize 16 - 8 * j = k
  by_cases hlow : n < k
  · simp [hn, hlow]
  · by_cases hhigh : n < k + 8
    · simp [hn, hlow, hhigh, show n - k < 8 by omega, show k ≤ n by omega]
      omega
    · simp [hn, hlow, hhigh, show ¬n - k < 8 by omega, show 8 ≤ n - k by omega]

theorem channel_setChannel {i j : ℕ} (hi : i < 3) (hj : j < 3) (p : Pixel) (v : Byte) :
    channel i (setChannel j p v) = if i = j then v else channel i p := by
  refine BitVec.eq_of_getLsbD_eq fun n hn => ?_
  rw [getLsbD_channel _ _ hn, getLsbD_setChannel _ _ _ (by omega)]
  split
  · next h =>
    obtain rfl : i = j := by omega
    rw [if_pos rfl, Nat.add_sub_cancel_left]
  · next h => rw [if_neg (by omega), getLsbD_channel _ _ hn]

/-! ### The starts and refusals of EMBED and EXTRACT -/

theorem startOf_eq_ite (p : Policy) (s : State) : startOf p s = if p = .lcg then s.seed else 0 := by
  cases p <;> rfl

theorem exec_embed (p : Policy) {s : State} (hs : s.state ≠ .traversing) (hc : s.cfgok = true) :
    exec (.embed p) s = embedBody p (prologue 3 s) :=
  (exec_accepted (.embed p) hs).trans (configured_yes hc)

theorem embedBody_starts (p : Policy) {s : State} (hlen : s.msglen.toNat ≤ s.cfg.msgbufBytes)
    (hcap : frameLength s ≤ 3 * s.mod.toNat) : embedBody p s = .next (startEmbed p s) := by
  rw [embedBody, if_neg hlen.not_gt, if_neg hcap.not_gt]

theorem embedBody_badLength (p : Policy) {s : State} (hlen : s.cfg.msgbufBytes < s.msglen.toNat) :
    embedBody p s = .next (failWith .badLength s) := if_pos hlen

theorem embedBody_capacityExceeded (p : Policy) {s : State} (hlen : s.msglen.toNat ≤ s.cfg.msgbufBytes)
    (hcap : 3 * s.mod.toNat < frameLength s) : embedBody p s = .next (failWith .capacityExceeded s) := by
  rw [embedBody, if_neg hlen.not_gt, if_pos hcap, raiseFail]

theorem exec_extract (p : Policy) {s : State} (hs : s.state ≠ .traversing) (hc : s.cfgok = true) :
    exec (.extract p) s = .next (startExtract p (prologue 4 s)) := by
  rw [exec_accepted (.extract p) hs, commandBody]
  exact configured_yes hc

/-- Settles O19: both checks pass, and the generator starts at the policy's start state. -/
theorem embedStartsTraversal : Obligations.EmbedStartsTraversal := by
  intro p s hs hc hlen hcap
  rw [← startOf_eq_ite]
  exact (exec_embed p hs hc).trans (embedBody_starts p hlen hcap)

/-- Settles O20: the checks in their order. -/
theorem embedRefusalsChangeOnlyStatus : Obligations.EmbedRefusalsChangeOnlyStatus :=
  fun p _ hs hc => ⟨fun hlen => (exec_embed p hs hc).trans (embedBody_badLength p hlen),
    fun hlen hcap => (exec_embed p hs hc).trans (embedBody_capacityExceeded p hlen hcap)⟩

/-- Settles O21: the generator starts at the policy's start state, the deserializer cleared. -/
theorem extractStartsTraversal : Obligations.ExtractStartsTraversal := by
  intro p s hs hc
  rw [← startOf_eq_ite]
  exact exec_extract p hs hc

end Sys2Proof.Proofs
end

section
/-! PROOFS. What a pixel step can do, disturbed or not (43_codec R194, R195, R201, R202): which fields it writes, and how it
ends. So every traversal ends (R206), and an extract leaves the image alone (R208). -/

namespace Sys2Proof.Proofs

open Sys2Proof Sys2Proof.Machine Sys2Proof.Laws

/-! ### Which fields a pixel step writes -/

/-- The state of an embed step before its endings are tested: the pixel is read, its bits inserted, and written back
(43_codec R194). -/
def embedWritten (x y : ℕ) (s : State) : State :=
  pixelWrite x y (insertChannels ((pixelRead x y s).2, (pixelRead x y s).1)).2
    (insertChannels ((pixelRead x y s).2, (pixelRead x y s).1)).1

theorem embedPixel_eq_endEmbed (x y : ℕ) (s : State) : embedPixel x y s = endEmbed (embedWritten x y s) := rfl

theorem embedWritten_eq (x y : ℕ) {s : State} (h : s.bitcnt.toNat ≤ frameLength s) : ∃ b m n,
    embedWritten x y s = { s with bitcnt := b, image := m, fresh := n } ∧
      b.toNat = min (frameLength s) (s.bitcnt.toNat + 3) := by
  obtain ⟨n, hread⟩ := pixelRead_eq x y s
  rw [embedWritten, hread]
  obtain ⟨b, hinsert, hb⟩ := insertChannels_bitcnt ({ s with fresh := n }, (pixelRead x y s).1) h
  obtain ⟨m, n', hwrite⟩ := pixelWrite_eq x y (insertChannels ({ s with fresh := n }, (pixelRead x y s).1)).2
    (insertChannels ({ s with fresh := n }, (pixelRead x y s).1)).1
  rw [hwrite, hinsert]
  exact ⟨b, m, n', rfl, hb⟩

theorem extractPixel_eq_scanChannels (x y : ℕ) (s : State) :
    extractPixel x y s = scanChannels (pixelRead x y s).1 [0, 1, 2] (pixelRead x y s).2 := rfl

/-- An extract step writes the deserializer, the buffer and its ending, and no pixel (43_codec R208). -/
theorem extractPixel_eq (x y : ℕ) (s : State) : ∃ st e n b r m f,
    extractPixel x y s =
      { s with state := st, err := e, reslen := n, bitcnt := b, sr := r, msgbuf := m, fresh := f } := by
  obtain ⟨f, hread⟩ := pixelRead_eq x y s
  obtain ⟨st, e, n, b, r, m, hscan⟩ := scanChannels_eq (pixelRead x y s).1 [0, 1, 2] (pixelRead x y s).2
  refine ⟨st, e, n, b, r, m, f, ?_⟩
  rw [extractPixel_eq_scanChannels, hscan, hread]

theorem settleRaces_eq (s : State) : ∃ st e n m b f i r t,
    settleRaces s =
      { s with state := st, err := e, reslen := n, msgbuf := m, bufEpoch := b, fresh := f, image := i, raced := r,
               tainted := t } := by
  unfold settleRaces
  split
  · exact ⟨s.state, s.err, s.reslen, s.msgbuf, s.bufEpoch, s.fresh, s.image, s.raced, s.tainted, rfl⟩
  · obtain ⟨i, hpixels⟩ := settlePixels_eq s.raced s
    obtain ⟨st, e, n, m, b, f, hresult⟩ := settleResult_eq { settlePixels s.raced s with raced := [] }
    rw [hresult, hpixels]
    exact ⟨_, _, _, _, _, _, _, _, _, rfl⟩

theorem settleRaces_count_agenda (s : State) : (settleRaces s).count = s.count ∧ (settleRaces s).agenda = s.agenda := by
  obtain ⟨st, e, n, m, b, f, i, r, t, hsettle⟩ := settleRaces_eq s
  rw [hsettle]
  exact ⟨rfl, rfl⟩

theorem settleRaces_image {s : State} (h : s.raced = []) : (settleRaces s).image = s.image := by
  unfold settleRaces
  split
  · rfl
  · obtain ⟨st, e, n, m, b, f, hresult⟩ := settleResult_eq { settlePixels s.raced s with raced := [] }
    rw [hresult, h]
    rfl

/-- Settles O55: a command writes no image, and an extract's pixel step leaves it to the settling of races, of which there
are none. -/
theorem extractNeverWritesImage : Obligations.ExtractNeverWritesImage := by
  rintro s t hraced (⟨p, h⟩ | ⟨hopk, h⟩)
  · have hu := exec_untouched h
    simp only [untouched, Prod.mk.injEq] at hu
    obtain ⟨-, -, himage, -⟩ := hu
    exact himage
  · rw [engineStep_extract hopk] at h
    obtain ⟨-, h⟩ := emit_cases h
    cases h
    obtain ⟨st, e, n, b, r, m, f, hstep⟩ := extractPixel_eq (coordX s) (coordY s) (advance s)
    rw [hstep]
    exact settleRaces_image hraced

/-! ### How a pixel step ends -/

/-- The traversal goes on, or has ended as 43_codec R207 lists for its kind. -/
def EndsAsListed (k : OpKind) (s : State) : Prop :=
  s.state = .traversing ∨ (s.state = .done ∧ s.err = .none) ∨
    (k = .extract ∧ s.state = .failed ∧ s.err = .msgOverflow) ∨ (k = .extract ∧ s.state = .exhausted ∧ s.err = .none)

/-- An embed with pixels left ends only with its last bit, and then DONE (43_codec R195). -/
theorem endEmbed_eq_ite {s : State} (hs : s.state = .traversing)
    (hleft : s.bitcnt.toNat ≠ frameLength s → s.count ≠ s.mod) :
    endEmbed s = { s with state := if s.bitcnt.toNat = frameLength s then .done else .traversing } := by
  unfold endEmbed
  split
  · rfl
  · next hmore => rw [if_neg (hleft hmore), ← hs]

theorem embedPixel_eq {x y n : ℕ} {s : State} {b : BitVec 64} {m : Image}
    (hwritten : embedWritten x y s = { s with bitcnt := b, image := m, fresh := n })
    (hb : b.toNat = min (frameLength s) (s.bitcnt.toNat + 3)) (hs : s.state = .traversing)
    (hleft : frameLength s ≤ s.bitcnt.toNat + 3 ∨ s.count ≠ s.mod) :
    embedPixel x y s =
      { s with
        bitcnt := b, image := m, fresh := n,
        state := if frameLength s ≤ s.bitcnt.toNat + 3 then .done else .traversing } := by
  have hlast : b.toNat = frameLength s ↔ frameLength s ≤ s.bitcnt.toNat + 3 := by omega
  rw [embedPixel_eq_endEmbed, hwritten]
  refine Eq.trans (endEmbed_eq_ite hs fun hmore => hleft.resolve_left (mt hlast.2 hmore)) ?_
  exact congrArg (fun st => { s with bitcnt := b, image := m, fresh := n, state := st }) (if_congr hlast rfl rfl)

/-- The grid holds the whole frame, so its pixels do not run out before the bits do (43_codec R196). -/
theorem pixels_left {s : State} (h : Inv s) (hs : s.state = .traversing) (ho : s.opk = .embed) :
    frameLength s ≤ s.bitcnt.toNat + 3 ∨ (advance s).count ≠ s.mod := by
  obtain ⟨-, hcount, -, hbits⟩ := h.traversing hs
  obtain ⟨-, hcap, -, -⟩ := h.embed hs ho
  have hnext := count_advance hcount
  refine or_iff_not_imp_left.2 fun hmore heq => ?_
  rw [heq] at hnext
  omega

theorem endsAsListed_finishMatch {s : State} (he : s.err = .none) : EndsAsListed .extract (finishMatch s) := by
  obtain ⟨st, e, n, hend, heq⟩ := finishMatch_eq s
  rw [heq]
  rcases hend with ⟨hst, he'⟩ | ⟨hst, he'⟩
  · exact .inr (.inl ⟨hst, he'.trans he⟩)
  · exact .inr (.inr (.inl ⟨rfl, hst, he'⟩))

theorem endsAsListed_scanChannels (p : Pixel) (js : List ℕ) {s : State} (hs : s.state = .traversing) (he : s.err = .none) :
    EndsAsListed .extract (scanChannels p js s) := by
  induction js generalizing s with
  | nil =>
    simp only [scanChannels, endExtract]
    split
    · exact .inr (.inr (.inr ⟨rfl, rfl, he⟩))
    · exact .inl hs
  | cons j js ih =>
    obtain ⟨m, hm⟩ := commit_eq (appendBit (lsb (channel j p)) s)
    simp only [scanChannels]
    rw [hm]
    split
    · exact endsAsListed_finishMatch he
    · exact ih hs he

theorem endsAsListed_extractPixel (x y : ℕ) {s : State} (hs : s.state = .traversing) (he : s.err = .none) :
    EndsAsListed .extract (extractPixel x y s) := by
  obtain ⟨n, hread⟩ := pixelRead_eq x y s
  rw [extractPixel_eq_scanChannels, hread]
  exact endsAsListed_scanChannels _ _ hs he

/-- Settling gives a tainted extract one of its own outcomes, and leaves STATE and ERR of any other traversal. -/
theorem endsAsListed_settleRaces {k : OpKind} {s : State} (h : EndsAsListed k s) (ht : s.tainted = true → k = .extract) :
    EndsAsListed k (settleRaces s) := by
  unfold settleRaces
  split
  · exact h
  · obtain ⟨m, hm⟩ := settlePixels_eq s.raced s
    rw [hm, settleResult]
    split
    · next htaint =>
      obtain rfl := ht htaint
      rcases outcome_cases (Config.freeOutcome (s.fresh + s.raced.length)) with ho | ho | ho
      · exact .inr (.inl ho)
      · exact .inr (.inr (.inr ⟨rfl, ho⟩))
      · exact .inr (.inr (.inl ⟨rfl, ho⟩))
    · exact h

/-- The engine's step in a traversal emits one value, leaves the agenda alone, and ends as listed. -/
theorem engineStep_progress {s : State} (h : Inv s) (hs : s.state = .traversing) : ∃ t, engineStep s = .next t ∧
    t.count.toNat = s.count.toNat + 1 ∧ t.agenda = s.agenda ∧ EndsAsListed s.opk t := by
  obtain ⟨-, he, -, hcount, -, ⟨hopk, hmore, -, -, -, htaint⟩ | ⟨hopk, -⟩⟩ := traversing_of_inv h hs
  · obtain ⟨hcount', hagenda⟩ := settleRaces_count_agenda (embedPixel (coordX s) (coordY s) (advance s))
    refine ⟨_, (engineStep_embed hopk).trans (emit_next hcount), ?_⟩
    obtain ⟨b, m, n, hwritten, hb⟩ := embedWritten_eq (coordX s) (coordY s) (s := advance s) hmore.le
    rw [hcount', hagenda, hopk, embedPixel_eq hwritten hb hs (pixels_left h hs hopk)]
    refine ⟨count_advance hcount, rfl, endsAsListed_settleRaces ?_ fun ht => absurd (ht.symm.trans htaint) (by decide)⟩
    rw [EndsAsListed]
    dsimp only [advance_err]
    split
    · exact .inr (.inl ⟨rfl, he⟩)
    · exact .inl rfl
  · obtain ⟨hcount', hagenda⟩ := settleRaces_count_agenda (extractPixel (coordX s) (coordY s) (advance s))
    refine ⟨_, (engineStep_extract hopk).trans (emit_next hcount), ?_⟩
    have hend := endsAsListed_extractPixel (coordX s) (coordY s) (s := advance s) hs he
    rw [hcount', hagenda, hopk]
    obtain ⟨st, e, n, b, r, m, f, hstep⟩ := extractPixel_eq (coordX s) (coordY s) (advance s)
    rw [hstep] at hend ⊢
    exact ⟨count_advance hcount, rfl, endsAsListed_settleRaces hend fun _ => rfl⟩

/-! ### Every traversal ends -/

theorem run_succ_of_step {k : ℕ} {s t : State} (h : step s = .next t) : run (k + 1) s = run k t :=
  coreRun_succ_of_step (M := Sys2Proof.core) h

theorem engineStep_mod {s t : State} (h : engineStep s = .next t) : t.mod = s.mod := by
  have hc := engineStep_configuration h
  simp only [configuration, Prod.mk.injEq] at hc
  obtain ⟨-, hmod, -⟩ := hc
  exact hmod

/-- Settles O56, by induction on the number of values left, of which each step takes one. -/
theorem traversalTerminates : Obligations.TraversalTerminates := by
  intro s
  generalize hleft : s.mod.toNat - s.count.toNat = left
  induction left generalizing s with
  | zero =>
    intro h hs _
    obtain ⟨-, hcount, -⟩ := h.traversing hs
    omega
  | succ left ih =>
    intro h hs ha
    obtain ⟨t, hengine, hcount, hagenda, -⟩ := engineStep_progress h hs
    have hstep : step s = .next t := by rw [step_nil ha, defaultTurn_traversing hs, hengine]
    by_cases ht : t.state = .traversing
    · have hinv : Inv t := (stepKeepsInvariant s h).1 t hstep
      have hleft' : t.mod.toNat - t.count.toNat = left := by rw [engineStep_mod hengine]; omega
      obtain ⟨k, u, hk, hrun, hu⟩ := ih t hleft' hinv ht (hagenda.trans ha)
      exact ⟨k + 1, u, Nat.succ_le_succ hk, (run_succ_of_step hstep).trans hrun, hu⟩
    · exact ⟨1, t, Nat.succ_le_succ (Nat.zero_le left), run_succ_of_step hstep, ht⟩

end Sys2Proof.Proofs
end

section
/-! PROOFS. STATE changes only along the transitions of 43_codec R207: the engine's endings, a reset, and the commands the
host writes to CMD. -/

namespace Sys2Proof.Proofs

open Sys2Proof Sys2Proof.Machine Sys2Proof.Laws

/-! ### Register accesses -/

/-- STATE as a command that `w` encodes leaves it: EMBED and EXTRACT start a traversal or fail, the others complete or
fail. -/
def CommandState (w : Word) (t : State) : Prop :=
  ∃ i, decode w = .ok i ∧ ((∃ p, i = .embed p ∨ i = .extract p) → t.state = .traversing ∨ t.state = .failed) ∧
    ((¬∃ p, i = .embed p ∨ i = .extract p) → t.state = .idle ∨ t.state = .failed)

/-- A transition by a CMD write: STATE is the old one, or that of a command accepted outside a traversal. -/
def CmdTransition (w : Word) (s t : State) : Prop := t.state = s.state ∨ (s.state ≠ .traversing ∧ CommandState w t)

theorem effect_state {i : Instr} {u t : State} (h : Effect i u t) (hu : u.state = .idle) :
    ((∃ p, i = .embed p ∨ i = .extract p) → t.state = .traversing ∨ t.state = .failed) ∧
      ((¬∃ p, i = .embed p ∨ i = .extract p) → t.state = .idle ∨ t.state = .failed) := by
  cases h with
  | embed p => exact ⟨fun _ => .inl rfl, fun hn => absurd ⟨p, .inl rfl⟩ hn⟩
  | extract p => exact ⟨fun _ => .inl rfl, fun hn => absurd ⟨p, .inr rfl⟩ hn⟩
  | fails hi e => exact ⟨fun _ => .inr rfl, fun _ => .inr rfl⟩
  | setupFails => exact ⟨fun _ => .inr rfl, fun _ => .inr rfl⟩
  | _ => exact ⟨by simp, fun _ => .inl hu⟩

theorem cmdWrite_transition {w : Word} {s t : State} (h : cmdWrite w s = .next t) : CmdTransition w s t := by
  rcases cmdWrite_cases h with ⟨i, hd, hexec⟩ | ⟨-, rfl⟩
  · rcases exec_cases hexec with ⟨-, rfl⟩ | ⟨hs, heff⟩
    · exact .inl rfl
    · exact .inr ⟨hs, i, hd, effect_state heff rfl⟩
  · exact .inl rfl

theorem regWrite_transition {off : ℕ} {v : Word} {s t : State} (h : regWrite off v s = .next t) :
    t.state = s.state ∨ (off = 0 ∧ CmdTransition v s t) := by
  rcases regWrite_cases h with ⟨h0, hcmd⟩ | ⟨-, rfl⟩ | ⟨-, rfl | rfl | rfl | rfl⟩ | rfl
  · exact .inr ⟨h0, cmdWrite_transition hcmd⟩
  · exact .inl rfl
  · exact .inl rfl
  · exact .inl rfl
  · exact .inl rfl
  · refine .inl ?_
    unfold storeMsgdata
    split <;> rfl
  · exact .inl rfl

theorem busWrite_transition {addr bits : ℕ} {v : Word} {s t : State} (h : busWrite addr bits v s = .next t) :
    t.state = s.state ∨ (addr = s.cfg.base ∧ bits = 32 ∧ CmdTransition v s t) := by
  unfold busWrite at h
  split at h
  · next off hoff =>
    obtain ⟨hbits, hbase, hoff, -, -⟩ := accessOffset_ok hoff
    exact (regWrite_transition h).imp_right fun ⟨h0, ht⟩ => ⟨by omega, hbits, ht⟩
  · cases h

theorem regRead_state (off : ℕ) (s : State) : (regRead off s).state = s.state := by
  unfold regRead readReg readMsgdata
  split
  · split <;> rfl
  · rfl

theorem busRead_state {addr bits : ℕ} {s t : State} (h : busRead addr bits s = .next t) : t.state = s.state := by
  unfold busRead at h
  split at h
  · cases h; exact regRead_state _ s
  · cases h

/-! ### The turns of the host -/

theorem thenCheck_cases {v : Word} {r : Result} {t : State} (h : thenCheck v r = .next t) :
    ∃ u, r = .next u ∧ t = hostChecks v u := by
  cases r with
  | next u => cases h; exact ⟨u, rfl, rfl⟩
  | fault f => cases h
  | refused f => cases h

theorem hostTurn_transition {s t : State} (h : hostTurn s = .next t) :
    t.state = s.state ∨ ∃ w, s.host.program[s.host.pc]? = some (.wr 0x00 w) ∧ CmdTransition w s t := by
  unfold hostTurn at h
  split at h
  · cases h; exact .inl rfl
  · next off v hstmt =>
    refine (busWrite_transition h).imp_right fun ⟨haddr, _, ht⟩ => ⟨v, ?_, ht⟩
    rw [hstmt, Nat.add_eq_left.1 haddr]
  · have hst := busRead_state h
    exact .inl hst
  · obtain ⟨u, hu, rfl⟩ := thenCheck_cases h
    have hst := busRead_state hu
    exact .inl hst
  · cases h; exact .inl rfl

theorem imageRead_state {x y : ℕ} {s t : State} (h : imageRead x y s = .next t) : t.state = s.state := by
  unfold imageRead at h
  split at h
  · split at h <;> cases h <;> rfl
  · cases h

theorem imageWrite_state {x y : ℕ} {p : Pixel} {s t : State} (h : imageWrite x y p s = .next t) : t.state = s.state := by
  unfold imageWrite at h
  split at h
  · cases h
    split <;> rfl
  · cases h

theorem attachImage_state {w h : ℕ} {pixels : List Pixel} {s t : State} (ht : attachImage w h pixels s = .next t) :
    t.state = s.state := by
  cases ht
  split <;> rfl

/-! ### The step -/

/-- A turn keeps STATE, or is a reset, an enabled engine step, or the host's write to CMD. -/
theorem takeTurn_transition {u : Turn} {s t : State} (h : takeTurn u s = .next t) :
    t.state = s.state ∨ (u = .reset ∧ t.state = .idle) ∨
      (u = .engine ∧ s.state = .traversing ∧ engineStep s = .next t) ∨
      ∃ w, (u = .busWrite s.cfg.base 32 w ∨ (u = .host ∧ s.host.program[s.host.pc]? = some (.wr 0x00 w))) ∧
        CmdTransition w s t := by
  cases u with
  | host => exact (hostTurn_transition h).imp_right fun ⟨w, hw, ht⟩ => .inr (.inr ⟨w, .inr ⟨rfl, hw⟩, ht⟩)
  | engine =>
    simp only [takeTurn, engineTurn] at h
    split at h
    · next hs => exact .inr (.inr (.inl ⟨rfl, hs, h⟩))
    · cases h; exact .inl rfl
  | reset => cases h; exact .inr (.inl ⟨rfl, rfl⟩)
  | busRead addr bits => exact .inl (busRead_state h)
  | busWrite addr bits v =>
    refine (busWrite_transition h).imp_right fun ⟨haddr, hbits, ht⟩ => .inr (.inr ⟨v, .inl ?_, ht⟩)
    rw [haddr, hbits]
  | imageRead x y => exact .inl (imageRead_state h)
  | imageWrite x y p => exact .inl (imageWrite_state h)
  | attach w h' pixels => exact .inl (attachImage_state h)

/-- A step keeps STATE, or is one of the events of 43_codec R207. -/
theorem step_transition {s t : State} (h : step s = .next t) :
    t.state = s.state ∨ ((∃ rest, s.agenda = .reset :: rest) ∧ t.state = .idle) ∨
      (EngineMoves s ∧ s.state = .traversing ∧ ∃ ts, engineStep { s with agenda := ts } = .next t) ∨
      ∃ w, WritesCmd w s ∧ CmdTransition w s t := by
  rcases step_cases h with ⟨ha, h⟩ | ⟨u, rest, ha, h⟩
  · by_cases hs : s.state = .traversing
    · rw [defaultTurn_traversing hs] at h
      exact .inr (.inr (.inl ⟨.inl ha, hs, s.agenda, h⟩))
    · rw [defaultTurn_host hs] at h
      exact (hostTurn_transition h).imp_right fun ⟨w, hw, ht⟩ => .inr (.inr ⟨w, .inr ⟨.inl ⟨ha, hs⟩, hw⟩, ht⟩)
  · rcases takeTurn_transition h with hst | ⟨rfl, hidle⟩ | ⟨rfl, hs, hengine⟩ | ⟨w, rfl | ⟨rfl, hw⟩, ht⟩
    · exact .inl hst
    · exact .inr (.inl ⟨⟨rest, ha⟩, hidle⟩)
    · exact .inr (.inr (.inl ⟨.inr ⟨rest, ha⟩, hs, rest, hengine⟩))
    · exact .inr (.inr (.inr ⟨w, .inl ⟨rest, ha⟩, ht⟩))
    · exact .inr (.inr (.inr ⟨w, .inr ⟨.inr ⟨rest, ha⟩, hw⟩, ht⟩))

/-- Settles O38: by the step's event, with the engine's endings as its pixel steps allow them. -/
theorem stateChangesOnlyAsListed : Obligations.StateChangesOnlyAsListed := by
  intro s t hinv h
  rcases step_transition h with
    hst | ⟨hreset, hidle⟩ | ⟨hmoves, hs, ts, hengine⟩ | ⟨w, hw, hst | ⟨hs, i, hd, hstarts, hrest⟩⟩
  · exact ⟨fun hs => .inl (hst.trans hs), fun _ => .inl hst⟩
  · exact ⟨fun _ => .inr (.inl ⟨hidle, hreset⟩), fun _ => .inr (.inl ⟨hidle, hreset⟩)⟩
  · obtain ⟨u, hu, -, -, hend⟩ := engineStep_progress (inv_agenda ts hinv) hs
    cases hu.symm.trans hengine
    exact ⟨fun _ => hend.imp_right fun hend => .inr ⟨hmoves, hend⟩, fun hn => absurd hs hn⟩
  · exact ⟨fun hs => .inl (hst.trans hs), fun _ => .inl hst⟩
  · exact ⟨fun htraversing => absurd htraversing hs, fun _ => .inr (.inr ⟨w, i, hw, hd, hstarts, hrest⟩)⟩

end Sys2Proof.Proofs
end

section
/-! PROOFS. The undisturbed embed (43_codec R194 to R198): what one pixel step inserts, the state after any number of steps,
and the frame in the pixels at the end. -/

namespace Sys2Proof.Proofs

open Sys2Proof Sys2Proof.Machine Sys2Proof.Laws

/-! ### The bits one pixel step inserts -/

/-- The first `n` channels of an embed step, in order (43_codec R194). -/
def insertFirst : ℕ → State × Pixel → State × Pixel
  | 0, sp => sp
  | n + 1, sp => insertChannel n (insertFirst n sp)

theorem insertChannels_eq_insertFirst (sp : State × Pixel) : insertChannels sp = insertFirst 3 sp := rfl

/-- `q` is the pixel `p` with the frame bits from bit `k` on in its channels, as far as the frame reaches. -/
def Inserted (s : State) (k : ℕ) (p q : Pixel) : Prop :=
  ∀ j < 3, channel j q =
    if k + j < frameLength s then insertLsb (channel j p) (frameBit s (k + j)) else channel j p

theorem channel_insertChannel {i j : ℕ} (hi : i < 3) (hj : j < 3) (s : State) (p : Pixel) :
    channel i (insertChannel j (s, p)).2 =
      if i = j ∧ s.bitcnt.toNat < frameLength s then insertLsb (channel j p) (frameBit s s.bitcnt.toNat)
      else channel i p := by
  unfold insertChannel
  split
  · next hmore =>
    rw [channel_setChannel hi hj]
    exact if_congr (and_iff_left hmore).symm rfl rfl
  · next hend => rw [if_neg fun h => hend h.2]

theorem insertFirst_spec (s : State) (p : Pixel) (h : s.bitcnt.toNat ≤ frameLength s) {n : ℕ} (hn : n ≤ 3) :
    ∃ b q, insertFirst n (s, p) = ({ s with bitcnt := b }, q) ∧
      b.toNat = min (frameLength s) (s.bitcnt.toNat + n) ∧
      ∀ j < 3, channel j q =
        if j < n ∧ s.bitcnt.toNat + j < frameLength s then
          insertLsb (channel j p) (frameBit s (s.bitcnt.toNat + j))
        else channel j p := by
  induction n with
  | zero => exact ⟨s.bitcnt, p, rfl, by omega, fun j _ => by simp⟩
  | succ n ih =>
    obtain ⟨b, q, hfirst, hb, hq⟩ := ih (by omega)
    obtain ⟨b', hb', hbits⟩ := insertChannel_bitcnt n ({ s with bitcnt := b }, q) (hb.trans_le (min_le_left _ _))
    refine ⟨b', (insertChannel n ({ s with bitcnt := b }, q)).2, ?_, ?_, fun j hj => ?_⟩
    · rw [insertFirst, hfirst, ← hb']
    · have hbits : b'.toNat = min (frameLength s) (b.toNat + 1) := hbits
      omega
    · rw [channel_insertChannel hj (by omega)]
      by_cases hjn : j = n
      · subst hjn
        have hmore : b.toNat < frameLength s ↔ s.bitcnt.toNat + j < frameLength s := by omega
        have hold : channel j q = channel j p := (hq j hj).trans (if_neg fun hlt => lt_irrefl j hlt.1)
        refine ite_congr (propext (and_congr (by omega) hmore)) (fun hlt => ?_) fun _ => hold
        rw [hold, show b.toNat = s.bitcnt.toNat + j by omega]
        rfl
      · rw [if_neg fun hc => hjn hc.1, hq j hj]
        exact if_congr (and_congr_left' (by omega)) rfl rfl

theorem insertChannels_spec (s : State) (p : Pixel) (h : s.bitcnt.toNat ≤ frameLength s) :
    ∃ b q, insertChannels (s, p) = ({ s with bitcnt := b }, q) ∧
      b.toNat = min (frameLength s) (s.bitcnt.toNat + 3) ∧ Inserted s s.bitcnt.toNat p q := by
  obtain ⟨b, q, hinsert, hb, hq⟩ := insertFirst_spec s p h le_rfl
  rw [insertChannels_eq_insertFirst]
  exact ⟨b, q, hinsert, hb, fun j hj => (hq j hj).trans (if_congr (and_iff_right hj) rfl rfl)⟩

/-! ### One undisturbed step -/

theorem pixelWrite_matching (x y : ℕ) (p : Pixel) {s : State} (hg : s.gridMatches = true) :
    pixelWrite x y p s = { s with image := s.image.setPixel (linearIndex x y s) p } := if_pos hg

theorem embedWritten_undisturbed (x y : ℕ) {s : State} (hg : s.gridMatches = true) (hr : s.raced = [])
    (h : s.bitcnt.toNat ≤ frameLength s) : ∃ b q,
    embedWritten x y s = { s with bitcnt := b, image := s.image.setPixel (linearIndex x y s) q } ∧
      b.toNat = min (frameLength s) (s.bitcnt.toNat + 3) ∧
      Inserted s s.bitcnt.toNat (s.image.pixel (linearIndex x y s)) q := by
  obtain ⟨b, q, hinsert, hb, hq⟩ := insertChannels_spec s (s.image.pixel (linearIndex x y s)) h
  refine ⟨b, q, ?_, hb, hq⟩
  rw [embedWritten, pixelRead_undisturbed x y hg hr, hinsert]
  exact pixelWrite_matching (s := { s with bitcnt := b }) x y q hg

/-- The engine's step in an undisturbed embed: one emission, the pixel it names with its bits inserted, and DONE with the
last bit (43_codec R194, R195). -/
theorem step_undisturbed_embed {s : State} (h : Inv s) (hu : Undisturbed s) (hs : s.state = .traversing)
    (ho : s.opk = .embed) : ∃ b q,
    step s = .next { advance s with
      bitcnt := b, image := s.image.setPixel s.lcgs.toNat q,
      state := if frameLength s ≤ s.bitcnt.toNat + 3 then .done else .traversing } ∧
    b.toNat = min (frameLength s) (s.bitcnt.toNat + 3) ∧ Inserted s s.bitcnt.toNat (s.image.pixel s.lcgs.toNat) q := by
  obtain ⟨hagenda, hgrid, hraced, htaint⟩ := hu
  obtain ⟨-, hcount, -⟩ := h.traversing hs
  obtain ⟨hmore, -⟩ := h.embed hs ho
  obtain ⟨b, q, hwritten, hb, hq⟩ := embedWritten_undisturbed (coordX s) (coordY s) (s := advance s) hgrid hraced hmore.le
  rw [linearIndex_coord] at hwritten hq
  refine ⟨b, q, ?_, hb, hq⟩
  rw [step_nil hagenda, defaultTurn_traversing hs, engineStep_embed ho, emit_next hcount,
    embedPixel_eq (n := s.fresh) hwritten hb hs (pixels_left h hs ho)]
  exact congrArg _ (settleRaces_undisturbed hraced htaint)

/-- Settles O54, from the step written out and the pixel it sets. -/
theorem embedStepWritesOnePixel : Obligations.EmbedStepWritesOnePixel := by
  intro s h hu hs ho
  obtain ⟨b, q, hstep, hb, hq⟩ := step_undisturbed_embed h hu hs ho
  obtain ⟨hc, hcount, -⟩ := h.traversing hs
  obtain ⟨-, hm, -⟩ := h.configured hc
  have herr : s.err = .none := h.err.1 (.inr (.inl hs))
  refine ⟨_, hstep, fun j hj => ?_, fun k hk => pixel_setPixel_other _ _ hk, hb, ?_, rfl, rfl, toNat_advance_lcgs hm, rfl,
    rfl, herr, rfl, rfl, rfl, fun _ => rfl, rfl, rfl, rfl, rfl, rfl, rfl, rfl, rfl⟩
  · dsimp only
    rw [pixel_setPixel_same]
    exact hq j hj
  · rw [succ_eq_toWord, Nat.mod_eq_of_lt (Nat.lt_of_le_of_lt hcount s.mod.isLt)]
    rfl

/-! ### The values emitted -/

/-- The value that `s` emits after `i` others. -/
def emitted (s : State) (i : ℕ) : ℕ := (advance^[i] s).lcgs.toNat

theorem mem_emissions_iff {n l : ℕ} {s : State} : l ∈ emissions n s ↔ ∃ i < n, emitted s i = l := by
  rw [List.mem_iff_getElem?]
  constructor
  · rintro ⟨i, hi⟩
    obtain ⟨hlt, -⟩ := List.getElem?_eq_some_iff.1 hi
    rw [length_emissions] at hlt
    exact ⟨i, hlt, Option.some.inj ((getElem?_emissions s hlt).symm.trans hi)⟩
  · rintro ⟨i, hlt, rfl⟩
    exact ⟨i, getElem?_emissions s hlt⟩

theorem emissions_add (k l : ℕ) (s : State) : emissions (k + l) s = emissions k s ++ emissions l (advance^[k] s) := by
  induction k generalizing s with
  | zero => rw [Nat.zero_add]; rfl
  | succ k ih =>
    rw [Nat.succ_add, emissions, ih (advance s)]
    rfl

/-- Within one period no value comes twice (41_sequence R136). -/
theorem nodup_emissions {s : State} {n : ℕ} (h : Inv s) (hc : s.cfgok = true) (hn : n ≤ s.mod.toNat) :
    (emissions n s).Nodup := by
  have hall : (emissions s.mod.toNat s).Nodup := (emissions_perm_range h hc).nodup_iff.2 List.nodup_range
  obtain ⟨l, hl⟩ := Nat.exists_eq_add_of_le hn
  rw [hl, emissions_add] at hall
  exact hall.of_append_left

theorem emitted_ne {s : State} {i k : ℕ} (h : Inv s) (hc : s.cfgok = true) (hik : i < k) (hk : k < s.mod.toNat) :
    emitted s i ≠ emitted s k := by
  intro heq
  refine hik.ne ((List.getElem?_inj ?_ (nodup_emissions h hc le_rfl)).1 ?_)
  · rw [length_emissions]; omega
  · rw [getElem?_emissions s (hik.trans hk), getElem?_emissions s hk]
    exact congrArg some heq

/-! ### The image after any number of steps -/

/-- `m` is the image of `s` after `k` pixel steps: step `i` has inserted its three bits into the pixel it emitted, and the
other pixels are unchanged. -/
structure EmbeddedImage (s : State) (k : ℕ) (m : Image) : Prop where
  touched : ∀ i < k, Inserted s (3 * i) (s.image.pixel (emitted s i)) (m.pixel (emitted s i))
  untouched : ∀ l, (∀ i < k, emitted s i ≠ l) → m.pixel l = s.image.pixel l

theorem EmbeddedImage.succ {s : State} {k : ℕ} {m : Image} {q : Pixel} (h : EmbeddedImage s k m)
    (hnew : ∀ i < k, emitted s i ≠ emitted s k) (hq : Inserted s (3 * k) (m.pixel (emitted s k)) q) :
    EmbeddedImage s (k + 1) (m.setPixel (emitted s k) q) := by
  refine ⟨fun i hi => ?_, fun l hl => ?_⟩
  · rcases Nat.lt_succ_iff_lt_or_eq.1 hi with hi | rfl
    · rw [pixel_setPixel_other m q (hnew i hi)]
      exact h.touched i hi
    · rwa [pixel_setPixel_same, ← h.untouched _ hnew]
  · rw [pixel_setPixel_other m q (hl k k.lt_succ_self).symm]
    exact h.untouched l fun i hi => hl i (Nat.lt_succ_of_lt hi)

/-- Bits 7 to 1 of every channel are as before (43_codec R197). -/
theorem EmbeddedImage.upper {s : State} {k : ℕ} {m : Image} (h : EmbeddedImage s k m) (l : ℕ) {j : ℕ} (hj : j < 3) :
    channel j (m.pixel l) &&& 0xFE = channel j (s.image.pixel l) &&& 0xFE := by
  by_cases hl : ∃ i < k, emitted s i = l
  · obtain ⟨i, hi, rfl⟩ := hl
    rw [h.touched i hi j hj]
    split
    · exact insertLsb_upper _ _
    · rfl
  · rw [h.untouched l fun i hi heq => hl ⟨i, hi, heq⟩]

theorem getElem?_pixelBits {m : Image} {ks : List ℕ} {b v : ℕ} (hv : ks[b / 3]? = some v) :
    (pixelBits m ks)[b]? = some (lsb (channel (b % 3) (m.pixel v))) := by
  have hr := Nat.mod_lt b (by decide : 3 > 0)
  have hblock := block_flatMap_of_length (f := fun k => channelBits (m.pixel k) [0, 1, 2]) (n := 3) (fun _ => rfl) hv
  have hbit : (channelBits (m.pixel v) [0, 1, 2])[b % 3]? = some (lsb (channel (b % 3) (m.pixel v))) := by
    interval_cases b % 3 <;> rfl
  rw [← hbit, ← hblock, List.getElem?_take_of_lt hr, List.getElem?_drop, Nat.div_add_mod]
  rfl

theorem length_pixelBits (m : Image) (ks : List ℕ) : (pixelBits m ks).length = 3 * ks.length :=
  length_flatMap_of_length (f := fun k => channelBits (m.pixel k) [0, 1, 2]) (n := 3) (fun _ => rfl) ks

/-- Read in the order of the emissions, the least-significant bits are the frame, then the old ones (43_codec R198). -/
theorem EmbeddedImage.bits {s : State} {k : ℕ} {m : Image} (h : EmbeddedImage s k m) (hk : frameLength s ≤ 3 * k) :
    pixelBits m (emissions k s) =
      frame (bufBytes s s.msglen.toNat) ++ (pixelBits s.image (emissions k s)).drop (frameLength s) := by
  obtain ⟨hlen, hframe⟩ := serializerProducesFrame s
  have hlen : (frame (bufBytes s s.msglen.toNat)).length = frameLength s := hlen
  refine List.ext_getElem? fun b => ?_
  by_cases hb : b < 3 * k
  · have hemit : (emissions k s)[b / 3]? = some (emitted s (b / 3)) := getElem?_emissions s (by omega)
    rw [getElem?_pixelBits hemit, h.touched (b / 3) (by omega) (b % 3) (Nat.mod_lt b (by decide)), Nat.div_add_mod]
    split
    · next hlt => rw [List.getElem?_append_left (hlen ▸ hlt), hframe b hlt, lsb_insertLsb]
    · next hge =>
      rw [List.getElem?_append_right (by omega), hlen, List.getElem?_drop, Nat.add_sub_cancel' (by omega),
        getElem?_pixelBits hemit]
  · rw [List.getElem?_eq_none (by rw [length_pixelBits, length_emissions]; omega),
      List.getElem?_eq_none (by rw [List.length_append, List.length_drop, hlen, length_pixelBits, length_emissions]; omega)]

/-! ### The state after any number of steps -/

/-- An embed at its start, with nobody but the engine to move. -/
structure EmbedStart (s : State) : Prop where
  inv : Inv s
  undisturbed : Undisturbed s
  state : s.state = .traversing
  opk : s.opk = .embed
  count : s.count = 0

/-- After `k` pixel steps, with what they make of BITCNT and the image. -/
def embedState (s : State) (k : ℕ) (b : BitVec 64) (m : Image) : State :=
  { advance^[k] s with bitcnt := b, image := m, state := if frameLength s ≤ 3 * k then .done else .traversing }

theorem embedState_eq (s : State) (k : ℕ) (b : BitVec 64) (m : Image) : ∃ i x v n c,
    embedState s k b m =
      { s with
        lastidx := i, coord := x, lcgs := v, count := n, cvalid := c, bitcnt := b, image := m,
        state := if frameLength s ≤ 3 * k then .done else .traversing } := by
  obtain ⟨i, x, v, n, c, hk⟩ := iterate_advance_eq k s
  refine ⟨i, x, v, n, c, ?_⟩
  rw [embedState, hk]

theorem frameLength_pos (s : State) : 0 < frameLength s := Nat.succ_pos _

theorem embedState_zero {s : State} (hs : s.state = .traversing) : embedState s 0 s.bitcnt s.image = s := by
  rw [embedState, if_neg (frameLength_pos s).not_ge, ← hs]
  rfl

theorem embedState_running {s : State} {k : ℕ} (b : BitVec 64) (m : Image) (hk : 3 * k < frameLength s) :
    (embedState s k b m).state = .traversing := if_neg hk.not_ge

/-- A step from a state of the embed emits a value, inserts its bits, and is the next state of the embed. -/
theorem step_embedState {s : State} {k : ℕ} {b : BitVec 64} {m : Image} (hu : Undisturbed s) (ho : s.opk = .embed)
    (h : Inv (embedState s k b m)) (hb : b.toNat = 3 * k) (hk : 3 * k < frameLength s) : ∃ b' q,
    step (embedState s k b m) = .next (embedState s (k + 1) b' (m.setPixel (emitted s k) q)) ∧
      b'.toNat = min (frameLength s) (3 * (k + 1)) ∧ Inserted s (3 * k) (m.pixel (emitted s k)) q := by
  have hs := embedState_running b m hk
  have hnext (b' : BitVec 64) (m' : Image) : { advance (embedState s k b m) with
      bitcnt := b', image := m', state := if frameLength s ≤ 3 * k + 3 then .done else .traversing } =
        embedState s (k + 1) b' m' := by
    rw [embedState, embedState, Function.iterate_succ_apply']
    rfl
  obtain ⟨i, x, v, n, c, heq⟩ := embedState_eq s k b m
  have hu' : Undisturbed (embedState s k b m) := by rw [heq]; exact hu
  have ho' : (embedState s k b m).opk = .embed := by rw [heq]; exact ho
  obtain ⟨b', q, hstep, hb', hq⟩ := step_undisturbed_embed h hu' hs ho'
  have hlen : frameLength (embedState s k b m) = frameLength s := by rw [heq]; rfl
  have hins : Inserted (embedState s k b m) = Inserted s := by rw [heq]; rfl
  have hbits : (embedState s k b m).bitcnt.toNat = 3 * k := hb
  rw [hlen, hbits] at hstep hb'
  rw [hins, hbits] at hq
  exact ⟨b', q, hstep.trans (congrArg _ (hnext b' _)), hb', hq⟩

/-- The states of an embed, up to the step that inserts its last bit. -/
theorem run_embed {s : State} (h : EmbedStart s) {k : ℕ} (hk : 3 * k < frameLength s + 3) : ∃ b m,
    run k s = .next (embedState s k b m) ∧ Inv (embedState s k b m) ∧ b.toNat = min (frameLength s) (3 * k) ∧
      EmbeddedImage s k m := by
  obtain ⟨hc, -, -, hbits⟩ := h.inv.traversing h.state
  obtain ⟨-, hcap, -, -⟩ := h.inv.embed h.state h.opk
  induction k with
  | zero =>
    have hstart := embedState_zero h.state
    rw [h.count] at hbits
    refine ⟨s.bitcnt, s.image, ?_, ?_, ?_, fun i hi => absurd hi (Nat.not_lt_zero i), fun _ _ => rfl⟩
    · rw [hstart]
      rfl
    · rw [hstart]
      exact h.inv
    · exact hbits.trans (by simp)
  | succ k ih =>
    obtain ⟨b, m, hrun, hinv, hb, hm⟩ := ih (by omega)
    have hnew (i : ℕ) (hi : i < k) := emitted_ne h.inv hc hi (show k < s.mod.toNat by omega)
    obtain ⟨b', q, hstep, hb', hq⟩ := step_embedState h.undisturbed h.opk hinv (by omega) (by omega)
    exact ⟨b', _, (run_succ_of_run hrun).trans hstep, (stepKeepsInvariant _ hinv).1 _ hstep, hb', hm.succ hnew hq⟩

/-- DONE after `n` pixel steps (43_codec R195). -/
def embedEnd (s : State) (n : ℕ) (b : BitVec 64) (m : Image) : State :=
  { advance^[n] s with bitcnt := b, image := m, state := .done }

theorem embedState_end {s : State} {n : ℕ} (b : BitVec 64) (m : Image) (hn : frameLength s ≤ 3 * n) :
    embedState s n b m = embedEnd s n b m := by
  rw [embedState, if_pos hn, embedEnd]

/-- A whole embed takes ⌈T/3⌉ pixel steps (43_codec R197). -/
theorem run_embed_end {s : State} (h : EmbedStart s) : ∃ b m,
    run ((frameLength s + 2) / 3) s = .next (embedEnd s ((frameLength s + 2) / 3) b m) ∧
      Inv (embedEnd s ((frameLength s + 2) / 3) b m) ∧ b.toNat = frameLength s ∧
      EmbeddedImage s ((frameLength s + 2) / 3) m := by
  obtain ⟨b, m, hrun, hinv, hb, hm⟩ := run_embed h (k := (frameLength s + 2) / 3) (by omega)
  rw [embedState_end b m (by omega)] at hrun hinv
  exact ⟨b, m, hrun, hinv, by omega, hm⟩

theorem steps_le_mod {s : State} (h : EmbedStart s) : (frameLength s + 2) / 3 ≤ s.mod.toNat := by
  obtain ⟨-, hcap, -, -⟩ := h.inv.embed h.state h.opk
  omega

/-- Settles O57: the states of the embed, its end, and what the image then holds. -/
theorem embedWritesTheFrame : Obligations.EmbedWritesTheFrame := by
  intro s hinv hundisturbed hstate hopk hcount
  have h : EmbedStart s := ⟨hinv, hundisturbed, hstate, hopk, hcount⟩
  obtain ⟨hc, -⟩ := hinv.traversing hstate
  have hpos := frameLength_pos s
  have hle := steps_le_mod h
  obtain ⟨b, m, hrun, -, hb, hm⟩ := run_embed_end h
  refine ⟨fun k hk => ?_, _, hrun, rfl, toNat_count_iterate_advance hcount (hle.trans_lt s.mod.isLt), hb, ?_,
    nodup_emissions hinv hc hle, fun k j hj => hm.upper k hj, fun k hk => hm.untouched k fun i hi heq => ?_,
    hm.bits (by omega)⟩
  · obtain ⟨b, m, hrun, -⟩ := run_embed h (k := k) (by omega)
    exact ⟨_, hrun, embedState_running b m (by omega)⟩
  · obtain ⟨n, hn⟩ : ∃ n, (frameLength s + 2) / 3 = n + 1 := ⟨(frameLength s + 2) / 3 - 1, by omega⟩
    rw [hn]
    exact getLast?_emissions n s
  · exact hk (mem_emissions_iff.2 ⟨i, hi, heq⟩)

end Sys2Proof.Proofs
end

section
/-! PROOFS. The round trip (43_codec R205): an extract after an embed under the same policy meets the same pixels in the
same order, so the bits it reads begin with the frame. -/

namespace Sys2Proof.Proofs

open Sys2Proof Sys2Proof.Machine Sys2Proof.Laws

/-! ### Bits that begin with a frame -/

theorem firstOccurrence_append {b : List Bool} {i : ℕ} (c : List Bool) (h : firstOccurrence 0 b = some i) :
    firstOccurrence 0 (b ++ c) = some i := by
  obtain ⟨hocc, hbefore⟩ := firstOccurrence_eq_some_iff.1 h
  have hfit := occursAt_length hocc
  refine firstOccurrence_eq_some_iff.2 ⟨(occursAt_append hfit).trans hocc, fun j hj => ?_⟩
  exact (occursAt_append (by omega)).trans (hbefore j hj)

theorem exists_firstOccurrence_frame (m : List Byte) : ∃ i, firstOccurrence 0 (frame m) = some i := by
  refine Option.ne_none_iff_exists'.1 fun hnone => ?_
  have hend := firstOccurrence_eq_none_iff.1 hnone (8 * m.length)
  rw [occursAt_frame_end] at hend
  cases hend

/-- The message in bits that begin with its frame is unframe of the frame: what follows is never looked at. -/
theorem unframe_frame_append (m : List Byte) (c : List Bool) : unframe (frame m ++ c) = unframe (frame m) := by
  obtain ⟨i, hi⟩ := exists_firstOccurrence_frame m
  have hfit := occursAt_length (firstOccurrence_eq_some_iff.1 hi).1
  rw [unframe, unframe, firstOccurrence_append c hi, hi, Option.map_some, Option.map_some]
  exact congrArg some (List.map_congr_left fun j hj => regrouped_append (by have := List.mem_range.1 hj; omega))

theorem EmbeddedImage.exists_bits {s : State} {k n : ℕ} {m : Image} (h : EmbeddedImage s k m) (hk : frameLength s ≤ 3 * k)
    (hn : k ≤ n) : ∃ c, pixelBits m (emissions n s) = frame (bufBytes s s.msglen.toNat) ++ c := by
  obtain ⟨l, rfl⟩ := Nat.exists_eq_add_of_le hn
  rw [emissions_add, pixelBits, List.flatMap_append, ← pixelBits, h.bits hk, List.append_assoc]
  exact ⟨_, rfl⟩

theorem length_bufBytes (s : State) (n : ℕ) : (bufBytes s n).length = n := by
  rw [bufBytes, List.length_map, List.length_range]

/-! ### An extract that finds a sentinel -/

/-- An extract is TRAVERSING before the step that completes the first occurrence (42_framer R169). -/
theorem run_extract_before {s : State} {i k : ℕ} (h : ExtractStart s) (hfirst : firstOccurrence 0 (extractBits s) = some i)
    (hk : k < (i + 16 + 2) / 3) : ∃ u, run k s = .next u ∧ u.state = .traversing := by
  obtain ⟨hocc, hbefore⟩ := firstOccurrence_eq_some_iff.1 hfirst
  have hfit := occursAt_length hocc
  rw [length_extractBits] at hfit
  refine ⟨_, run_received h (k := k) (by omega) fun j hj => hbefore j (by omega), ?_⟩
  obtain ⟨b, m, hr⟩ := received_eq h k (3 * k)
  rw [hr]
  exact h.state

/-- What a whole extract that finds a sentinel ends with (43_codec R203), as O58 says. -/
theorem run_extract_found {s : State} {i : ℕ} {d : List Byte} (h : ExtractStart s)
    (hfirst : firstOccurrence 0 (extractBits s) = some i) (hd : unframe (extractBits s) = some d) : ∃ t,
    run ((i + 16 + 2) / 3) s = .next t ∧ t.reslen.toNat = d.length ∧
      (d.length ≤ s.cfg.msgbufBytes → t.state = .done ∧ t.err = .none ∧ bufBytes t d.length = d) ∧
      (s.cfg.msgbufBytes < d.length →
        t.state = .failed ∧ t.err = .msgOverflow ∧ bufBytes t s.cfg.msgbufBytes = d.take s.cfg.msgbufBytes) := by
  obtain ⟨n, t, -, hrun, -, -, -, -, -, -, -, -, -, -, -, -, -, -, -, -, -, -, -, -, -, -, -, -, -, -, hstop, hfound⟩ :=
    extractComputesUnframe s h.inv h.undisturbed h.state h.opk h.count h.sr
  obtain ⟨-, rfl, -⟩ := hstop i hfirst
  exact ⟨t, hrun, hfound d hd⟩

/-! ### The two traversals -/

theorem emissions_congr {s u : State} (hm : 1 ≤ s.mod.toNat) (hmod : u.mod = s.mod) (hnext : nextOf u = nextOf s)
    (hlcgs : u.lcgs = s.lcgs) (n : ℕ) : emissions n u = emissions n s := by
  rw [emissions_eq_iterate hm, emissions_eq_iterate (by rwa [hmod]), hnext, hlcgs]

/-- An EMBED that leaves a traversal has started it. -/
theorem exec_embed_traversing {p : Policy} {s t : State} (hs : s.state ≠ .traversing) (h : exec (.embed p) s = .next t)
    (ht : t.state = .traversing) : t = startEmbed p (prologue 3 s) := by
  rcases exec_cases h with ⟨hs', -⟩ | ⟨-, heff⟩
  · exact absurd hs' hs
  · cases heff with
    | fails => cases ht
    | embed => rfl

theorem inv_exec {i : Instr} {s t : State} (h : Inv s) (hexec : exec i s = .next t) : Inv t := by
  have hk := keeps_exec i h
  rwa [hexec] at hk

/-- The state an extract starts in after an embed of `n` pixel steps from `s` under the same policy. -/
def extractAfterEmbed (p : Policy) (s : State) (n : ℕ) (b : BitVec 64) (m : Image) : State :=
  startExtract p (prologue 4 (embedEnd (startEmbed p s) n b m))

/-- The extract starts where the embed started, but for the image and what its own start writes. -/
theorem extractAfterEmbed_eq (p : Policy) (s : State) (n : ℕ) (b : BitVec 64) (m : Image) : ∃ i x,
    extractAfterEmbed p s n b m = { startEmbed p s with
      err := .none, rej := false, lastop := 4, opk := .extract, bitcnt := 0, sr := 0, reslen := 0, lastidx := i, coord := x,
      image := m } := by
  obtain ⟨i, x, v, c, f, hk⟩ := iterate_advance_eq n (startEmbed p s)
  rw [extractAfterEmbed, embedEnd, hk]
  exact ⟨i, x, rfl⟩

theorem extractAfterEmbed_cfg (p : Policy) (s : State) (n : ℕ) (b : BitVec 64) (m : Image) :
    (extractAfterEmbed p s n b m).cfg = (startEmbed p s).cfg := by
  obtain ⟨i, x, heq⟩ := extractAfterEmbed_eq p s n b m
  rw [heq]

/-- Both traversals emit the same values: SEED, the parameters and the policy are the same. -/
theorem emissions_extractAfterEmbed (p : Policy) {s : State} (hm : 1 ≤ s.mod.toNat) (k n : ℕ) (b : BitVec 64) (m : Image) :
    emissions n (extractAfterEmbed p s k b m) = emissions n (startEmbed p s) := by
  obtain ⟨i, x, heq⟩ := extractAfterEmbed_eq p s k b m
  rw [heq]
  refine emissions_congr (s := startEmbed p s) hm ?_ ?_ ?_ n
  · rfl
  · rfl
  · rfl

theorem iterate_advance_cfgok (k : ℕ) (s : State) : (advance^[k] s).cfgok = s.cfgok := by
  obtain ⟨i, x, v, n, c, hk⟩ := iterate_advance_eq k s
  rw [hk]

theorem exec_extract_afterEmbed {p : Policy} {s : State} (hc : s.cfgok = true) (n : ℕ) (b : BitVec 64) (m : Image) :
    exec (.extract p) (embedEnd (startEmbed p s) n b m) = .next (extractAfterEmbed p s n b m) :=
  exec_extract p (by simp [embedEnd]) ((iterate_advance_cfgok n (startEmbed p s)).trans hc)

theorem extractStart_afterEmbed {p : Policy} {s : State} {n : ℕ} {b : BitVec 64} {m : Image} (hu : Undisturbed s)
    (hinv : Inv (extractAfterEmbed p s n b m)) : ExtractStart (extractAfterEmbed p s n b m) := by
  refine ⟨hinv, ?_, rfl, rfl, rfl, rfl⟩
  obtain ⟨i, x, heq⟩ := extractAfterEmbed_eq p s n b m
  rw [heq]
  exact hu

/-- The bits the extract reads begin with the frame that the embed wrote. -/
theorem extractBits_afterEmbed {p : Policy} {s : State} {n : ℕ} (b : BitVec 64) {m : Image} (hm : 1 ≤ s.mod.toNat)
    (hle : n ≤ s.mod.toNat) (hlen : frameLength s ≤ 3 * n) (himage : EmbeddedImage (startEmbed p s) n m) :
    ∃ c, extractBits (extractAfterEmbed p s n b m) = frame (bufBytes s s.msglen.toNat) ++ c := by
  obtain ⟨c, hbits⟩ := himage.exists_bits hlen hle
  have hemit := emissions_extractAfterEmbed p hm n s.mod.toNat b m
  obtain ⟨i, x, heq⟩ := extractAfterEmbed_eq p s n b m
  rw [heq] at hemit ⊢
  exact ⟨c, (congrArg (pixelBits m) hemit).trans hbits⟩

/-! ### What the extract finds -/

/-- An extract that found `d` ends DONE with the message exactly when `d` is the message. -/
theorem ends_with_message_iff {t : State} {d msg : List Byte} {len : Word} {size : ℕ} (hmsg : msg.length = len.toNat)
    (hfit : len.toNat ≤ size) (hlen : t.reslen.toNat = d.length)
    (hdone : d.length ≤ size → t.state = .done ∧ t.err = .none ∧ bufBytes t d.length = d) :
    (t.state = .done ∧ t.reslen = len ∧ bufBytes t len.toNat = msg) ↔ d = msg := by
  constructor
  · rintro ⟨-, rfl, hbytes⟩
    rw [hlen] at hbytes hfit
    obtain ⟨-, -, hd⟩ := hdone hfit
    exact hd.symm.trans hbytes
  · rintro rfl
    rw [hmsg] at hdone hlen
    obtain ⟨hs, -, hd⟩ := hdone hfit
    exact ⟨hs, BitVec.eq_of_toNat_eq hlen, hd⟩

/-- An undisturbed extract whose bits begin with the frame of a message that fits the buffer ends, and finds the message
exactly when the message holds no sentinel. -/
theorem extract_frame {s : State} {msg : List Byte} {len : Word} {c : List Bool} (h : ExtractStart s)
    (hbits : extractBits s = frame msg ++ c) (hmsg : msg.length = len.toNat) (hfit : len.toNat ≤ s.cfg.msgbufBytes) :
    ∃ k t, run k s = .next t ∧ t.state ≠ .traversing ∧ (∀ j < k, ∃ u, run j s = .next u ∧ u.state = .traversing) ∧
      ((t.state = .done ∧ t.reslen = len ∧ bufBytes t len.toNat = msg) ↔
        ∀ i, occursAt (msg.flatMap byteBits) i = false) := by
  obtain ⟨i, hi⟩ := exists_firstOccurrence_frame msg
  have hfirst : firstOccurrence 0 (extractBits s) = some i := hbits ▸ firstOccurrence_append c hi
  obtain ⟨d, hd⟩ : ∃ d, unframe (frame msg) = some d := ⟨_, unframe_eq_some_iff.2 ⟨i, hi, rfl⟩⟩
  obtain ⟨t, hrun, hlen, hdone, hover⟩ := run_extract_found h hfirst (by rw [hbits, unframe_frame_append, hd])
  refine ⟨_, t, hrun, ?_, fun j hj => run_extract_before h hfirst hj, ?_⟩
  · rcases le_or_gt d.length s.cfg.msgbufBytes with hle | hgt
    · simp [(hdone hle).1]
    · simp [(hover hgt).1]
  · rw [ends_with_message_iff hmsg hfit hlen hdone, ← frameUnframesUnlessSentinelInside msg, hd, Option.some.injEq]

/-- Settles O59: the embed ends with its frame in the image, the extract unframes it, and by O52 that is the message exactly
when the message holds no sentinel. -/
theorem extractAfterEmbedFindsMessage : Obligations.ExtractAfterEmbedFindsMessage := by
  intro p s s₁ s₂ hinv hu hs hembed hs₁ hrun
  have hinv₁ := inv_exec hinv hembed
  obtain rfl := exec_embed_traversing hs hembed hs₁
  have hstart : EmbedStart (startEmbed p (prologue 3 s)) := ⟨hinv₁, hu, rfl, rfl, rfl⟩
  obtain ⟨hc, -⟩ := hinv₁.traversing hs₁
  obtain ⟨-, hpos, -⟩ := hinv₁.configured hc
  obtain ⟨-, -, hfit, -⟩ := hinv₁.embed hs₁ rfl
  obtain ⟨b, m, hrun', hinv₂, -, himage⟩ := run_embed_end hstart
  cases hrun'.symm.trans hrun
  have hexec := exec_extract_afterEmbed (p := p) (s := prologue 3 s) hc ((frameLength s + 2) / 3) b m
  have hextract := extractStart_afterEmbed (s := prologue 3 s) hu (inv_exec hinv₂ hexec)
  have hle := steps_le_mod hstart
  obtain ⟨c, hbits⟩ := extractBits_afterEmbed (s := prologue 3 s) b hpos hle
    (show frameLength s ≤ 3 * ((frameLength s + 2) / 3) by omega) himage
  rw [← extractAfterEmbed_cfg p (prologue 3 s) ((frameLength s + 2) / 3) b m] at hfit
  obtain ⟨k, t, hend⟩ := extract_frame hextract hbits (length_bufBytes s s.msglen.toNat) hfit
  exact ⟨_, k, t, hexec, hend⟩

end Sys2Proof.Proofs
end

section
/-! PROOFS. The checks of a command in their order, and the one outcome they give (60_exceptions R232 to R237, R241). -/

namespace Sys2Proof.Proofs

open Sys2Proof Sys2Proof.Machine Sys2Proof.Laws

/-! ### Without a configuration -/

theorem commandBody_unconfigured {i : Instr} {u : State} (hc : u.cfgok = false) (hnop : i ≠ .nop) (hsetup : i ≠ .setup) :
    commandBody i u = .next (failWith .notConfigured u) := by
  cases i with
  | nop => exact absurd rfl hnop
  | setup => exact absurd rfl hsetup
  | _ => rw [commandBody]; exact configured_no hc

/-- Settles O14: after the prologue the check of the configuration, first in each of the five commands, fails. -/
theorem unconfiguredCommandsFail : Obligations.UnconfiguredCommandsFail :=
  fun i _ hs hc hnop hsetup => (exec_accepted i hs).trans (commandBody_unconfigured hc hnop hsetup)

/-! ### The first check that applies -/

/-- ERR after an accepted command: the checks 3 to 7 of 60_exceptions R241, in its order. -/
def commandError (i : Instr) (s : State) : ErrCode :=
  if i = .setup ∧ (gridW s.grid = 0 ∨ gridH s.grid = 0) then .invalidGrid
  else if (i ≠ .nop ∧ i ≠ .setup) ∧ s.cfgok = false then .notConfigured
  else if (i = .embed .raster ∨ i = .embed .lcg) ∧ s.cfg.msgbufBytes < s.msglen.toNat then .badLength
  else if (i = .embed .raster ∨ i = .embed .lcg) ∧ 3 * s.mod.toNat < 8 * s.msglen.toNat + 16 then .capacityExceeded
  else .none

theorem isEmbed_iff {i : Instr} : (i = .embed .raster ∨ i = .embed .lcg) ↔ ∃ p, i = .embed p :=
  ⟨fun h => h.elim (⟨_, ·⟩) (⟨_, ·⟩), fun ⟨p, h⟩ => by cases p <;> simp [h]⟩

theorem genNextBody_keeps_err {u t : State} (h : genNextBody u = .next t) : t.err = u.err := by
  unfold genNextBody at h
  split at h
  · cases h; rfl
  · obtain ⟨-, h⟩ := emit_cases h
    cases h; rfl

/-- A command that passes every check raises no error. -/
theorem commandBody_keeps_err {i : Instr} {u t : State} (h : commandBody i u = .next t)
    (hgrid : i = .setup → gridW u.grid ≠ 0 ∧ gridH u.grid ≠ 0) (hconfig : i ≠ .nop → i ≠ .setup → u.cfgok = true)
    (hfit : ∀ p, i = .embed p → u.msglen.toNat ≤ u.cfg.msgbufBytes ∧ frameLength u ≤ 3 * u.mod.toNat) :
    t.err = u.err := by
  cases i with
  | nop => cases h; rfl
  | setup =>
    obtain ⟨hw, hh⟩ := hgrid rfl
    rw [commandBody, setupBody_valid hw hh] at h
    cases h; rfl
  | embed p =>
    obtain ⟨hlen, hcap⟩ := hfit p rfl
    rw [commandBody, configured_yes (hconfig nofun nofun), embedBody_starts p hlen hcap] at h
    cases h; rfl
  | genNext =>
    rw [commandBody, configured_yes (hconfig nofun nofun)] at h
    exact genNextBody_keeps_err h
  | _ =>
    rw [commandBody, configured_yes (hconfig nofun nofun)] at h
    cases h; rfl

/-- The settled refusals give each failing check its error; the commands' own rules keep the prologue's NONE otherwise. -/
theorem exec_err {i : Instr} {s t : State} (hs : s.state ≠ .traversing) (h : exec i s = .next t) :
    t.err = commandError i s := by
  unfold commandError
  split_ifs with hgrid hconfig hlen hcap
  · obtain ⟨rfl, hzero⟩ := hgrid
    cases ((exec_setup hs).trans (setupBody_zero hzero)).symm.trans h
    rfl
  · obtain ⟨⟨hnop, hsetup⟩, hc⟩ := hconfig
    cases (unconfiguredCommandsFail i s hs hc hnop hsetup).symm.trans h
    rfl
  · obtain ⟨hembed, hlong⟩ := hlen
    obtain ⟨p, rfl⟩ := isEmbed_iff.1 hembed
    obtain ⟨hbad, -⟩ := embedRefusalsChangeOnlyStatus p s hs (by simpa using hconfig)
    cases (hbad hlong).symm.trans h
    rfl
  · obtain ⟨hembed, hlarge⟩ := hcap
    obtain ⟨p, rfl⟩ := isEmbed_iff.1 hembed
    obtain ⟨-, hfull⟩ := embedRefusalsChangeOnlyStatus p s hs (by simpa using hconfig)
    cases (hfull (not_lt.1 (not_and.1 hlen hembed)) hlarge).symm.trans h
    rfl
  · simp only [isEmbed_iff, not_and, not_or, not_lt, Bool.not_eq_false] at hgrid hconfig hlen hcap
    rw [exec_accepted i hs] at h
    exact commandBody_keeps_err h hgrid (fun hnop hsetup => hconfig ⟨hnop, hsetup⟩) fun p hi => ⟨hlen ⟨p, hi⟩, hcap ⟨p, hi⟩⟩

/-- Settles O9: ERR is that of the first check that applies, and each check's condition excludes the others'. -/
theorem commandChecksHavePriority : Obligations.CommandChecksHavePriority := by
  intro i s t h
  refine ⟨fun hs => ?_, fun hs => ?_⟩
  · rw [exec_traversing hs] at h
    cases h
    rfl
  · simp only [isEmbed_iff]
    rw [exec_err hs h, commandError]
    split_ifs with hgrid hconfig hlen hcap
    · obtain ⟨rfl, hzero⟩ := hgrid
      simpa using hzero
    · obtain ⟨⟨hnop, hsetup⟩, hc⟩ := hconfig
      simp [hnop, hsetup, hc]
    · obtain ⟨hembed, hlong⟩ := hlen
      obtain ⟨p, rfl⟩ := isEmbed_iff.1 hembed
      have hc : s.cfgok = true := by simpa using hconfig
      simp [hc, hlong, hlong.not_ge]
    · obtain ⟨hembed, hlarge⟩ := hcap
      have hfits := not_lt.1 (not_and.1 hlen hembed)
      obtain ⟨p, rfl⟩ := isEmbed_iff.1 hembed
      have hc : s.cfgok = true := by simpa using hconfig
      simp [hc, hfits, hlarge]
    · exact ⟨iff_of_false nofun hgrid, iff_of_false nofun hconfig,
        iff_of_false nofun fun ⟨hembed, _, hlong⟩ => hlen ⟨isEmbed_iff.2 hembed, hlong⟩,
        iff_of_false nofun fun ⟨hembed, _, _, hlarge⟩ => hcap ⟨isEmbed_iff.2 hembed, hlarge⟩, nofun, nofun⟩

end Sys2Proof.Proofs
end

section
/-! PROOFS. Reset (70_reset R260): the block takes its reset values, and the image keeps all but the raced pixels. -/

namespace Sys2Proof.Proofs

open Sys2Proof Sys2Proof.Machine Sys2Proof.Laws

/-- What reset leaves, written out: of the settling of races, only the image and the number of free values drawn. -/
theorem resetBlock_eq (s : State) : resetBlock s = { State.reset with
    image := (settlePixels s.raced s).image, host := s.host, agenda := s.agenda, cfg := s.cfg,
    fresh := s.fresh + s.raced.length + 1, bufEpoch := s.fresh + s.raced.length } := by
  obtain ⟨m, hm⟩ := settlePixels_eq s.raced s
  rw [resetBlock, hm]

theorem step_reset {s : State} {rest : List Turn} (h : s.agenda = .reset :: rest) :
    step s = .next (resetBlock { s with agenda := rest }) := step_cons h

theorem settlePixels_image_of_not_raced {s : State} (h : s.raced = []) : (settlePixels s.raced s).image = s.image := by
  rw [h, settlePixels]

/-- Settles O35: reset settles the races, which redraws the listed pixels and nothing else of the image; the other block
elements are those of State.reset, each evaluated. -/
theorem resetGivesResetValues : Obligations.ResetGivesResetValues := by
  intro s rest h
  have hstep := (step_reset h).trans (congrArg _ (resetBlock_eq _))
  obtain ⟨hwidth, hheight⟩ := settlePixels_size s.raced { s with agenda := rest }
  exact ⟨_, _, _, hstep, settlePixels_image_of_not_raced (s := { s with agenda := rest }), hwidth, hheight,
    fun _ hl => settlePixels_other s.raced _ hl, by decide⟩

end Sys2Proof.Proofs
end
